-- ==== Sys2Proof/Word.lean ====
section
/-!
DEFINITION. The word, octet and tag types of the Meranto 6240 (00_scope.md section 0.6).
-/

namespace Sys2Proof

/-- A word of the local memory bus: 32 bits, 4 octets (section 0.6, Sizes and addresses). -/
abbrev Word := BitVec 32

/-- One octet of a path tag, and one byte lane of a word. -/
abbrev Octet := BitVec 8

/-- A lane set: bit `l` is byte lane `l`, lane 0 carrying bits 7 … 0 (chapter 11). -/
abbrev Lanes := BitVec 4

/-- A master number 0 … 15 (section 0.6, Masters). -/
abbrev Master := BitVec 4

/-- The 28 address pins of the upstream group: a word address (R175); the octet address is 4 times it. -/
abbrev WordAddr := BitVec 28

/-- A path tag: 12 octets, numbered 0 … 11 (R3). -/
abbrev Tag := Vector Octet 12

/-- The tag of twelve zero octets. -/
def zeroTag : Tag := Vector.replicate 12 0

end Sys2Proof
end

