-- ==== Sys2Proof/Syntax.lean ====
section
/-!
DEFINITION. The commands of the part: one constructor for each row of spec/opcode_table.json.
A command is one whole and indivisible step of the part (95_what_each_step_holds.md): an access that a
master presents, an answer of memory downstream, a step of a block of the part, or an event of a clock.
The operands of a row are what comes from outside in that step: an address, data, a lane set, a master
number, strap levels, or the channel whose timer runs out.
-/

namespace Sys2Proof

/-- The direction of an upstream access, with a write's data and lane set (section 2.1). -/
inductive AccessOp where
  | read
  | write (data : Word) (lanes : Lanes)
  deriving DecidableEq, Repr

/-- The 46 commands, in the order of the table. -/
inductive Instr where
  /-- RESET (R175). -/
  | reset
  /-- RESET_END (R175, R174), with the levels of DRING3 … DRING0 and of BORD. -/
  | resetEnd (dring : BitVec 4) (bord : Bool)
  /-- CONNECTION_WRITE (R32): a master presents a write. -/
  | connectionWrite (addr : WordAddr) (data : Word) (lanes : Lanes) (master : Master)
  /-- LANDING_TAG_WRITE (R34): a master presents a write. -/
  | landingTagWrite (addr : WordAddr) (data : Word) (lanes : Lanes) (master : Master)
  /-- CLOSING_WORD (R35): a master presents a write that carries all four lanes. -/
  | closingWord (addr : WordAddr) (data : Word) (master : Master)
  /-- HOLD_LIMIT_EXPIRY (R36). -/
  | holdLimitExpiry
  /-- CONSUMER_WORD_WRITE (R38): a master presents a write. -/
  | consumerWordWrite (addr : WordAddr) (data : Word) (lanes : Lanes) (master : Master)
  /-- UPSTREAM_WRITE (R29): a master presents a write. -/
  | upstreamWrite (addr : WordAddr) (data : Word) (lanes : Lanes) (master : Master)
  /-- UPSTREAM_READ (R31): a master presents a read. -/
  | upstreamRead (addr : WordAddr) (master : Master)
  /-- LATE_ERROR_ACCESS (R44): a master presents its next access, a read or a write. -/
  | lateErrorAccess (addr : WordAddr) (op : AccessOp) (master : Master)
  /-- PORT_GRANT (R40). -/
  | portGrant
  /-- FORWARDED_WRITE_COMPLETE (R30). -/
  | forwardedWriteComplete
  /-- FORWARDED_READ_COMPLETE (R31), with the data memory returns. -/
  | forwardedReadComplete (data : Word)
  /-- DOWNSTREAM_TIMEOUT (R42). -/
  | downstreamTimeout
  /-- DOWNSTREAM_ERROR_COMPLETION (R42). -/
  | downstreamErrorCompletion
  /-- CLASSIFY (R57). -/
  | classify
  /-- ARRIVAL_CONSUMPTION (R67). -/
  | arrivalConsumption
  /-- SILENCE_EXPIRY (R78), with the channel whose silence timer runs out. -/
  | silenceExpiry (channel : Fin 512)
  /-- LAYOUT (R161): execution of the LAYOUT directive in hand. -/
  | layout
  /-- SET_POLICY (R162): execution of the SET_POLICY directive in hand. -/
  | setPolicy
  /-- LOAD (R20): execution of the LOAD directive in hand. -/
  | load
  /-- DROP (R24): execution of the DROP directive in hand. -/
  | drop
  /-- OPEN (R103): execution of the OPEN directive in hand. -/
  | openWindow
  /-- MARK (R105): execution of the MARK directive in hand. -/
  | mark
  /-- CLOSE (R108): execution of the CLOSE directive in hand. -/
  | close
  /-- ABANDON (R114): execution of the ABANDON directive in hand. -/
  | abandon
  /-- ACCEPT (R115): execution of the ACCEPT directive in hand. -/
  | accept
  /-- RECHECK (R148): execution of the RECHECK directive in hand. -/
  | recheck
  /-- RESTORE (R128): execution of the RESTORE directive in hand. -/
  | restore
  /-- DEADLINE_EXPIRY (R107). -/
  | deadlineExpiry
  /-- SETTLE_EXPIRY (R110). -/
  | settleExpiry
  /-- STEADY_EXPIRY (R142). -/
  | steadyExpiry
  /-- VERIFY_LIMIT_EXPIRY (R144). -/
  | verifyLimitExpiry
  /-- CAPTURE_READ_COMPLETE (R121), with the data memory returns. -/
  | captureReadComplete (data : Word)
  /-- CLOSE_SWEEP_READ_COMPLETE (R122), with the data memory returns. -/
  | closeSweepReadComplete (data : Word)
  /-- DRIFT_SWEEP_READ_COMPLETE (R126), with the data memory returns. -/
  | driftSweepReadComplete (data : Word)
  /-- RESTORE_WRITE_COMPLETE (R130). -/
  | restoreWriteComplete
  /-- DIRECTIVE_FETCH_READ_COMPLETE (R153), with the data memory returns. -/
  | directiveFetchReadComplete (data : Word)
  /-- DIRECTIVE_COMPLETION_WRITE_END (R157). -/
  | directiveCompletionWriteEnd
  /-- REPORT_WRITE_START (R165). -/
  | reportWriteStart
  /-- REPORT_WORD_COMPLETE (R166). -/
  | reportWordComplete
  /-- REPORT_HOLD_OFF_EXPIRY (R166). -/
  | reportHoldOffExpiry
  /-- SUMMARY_REWRITE_START (R168). -/
  | summaryRewriteStart
  /-- SUMMARY_WORD_COMPLETE (R168). -/
  | summaryWordComplete
  /-- SUMMARY_HOLD_OFF_EXPIRY (R168). -/
  | summaryHoldOffExpiry
  /-- ATTN_PULSE_END (R169). -/
  | attnPulseEnd
  deriving DecidableEq, Repr

end Sys2Proof
end

