-- ==== Sys2Proof/Decode.lean ====
section
/-!
DEFINITION. The command that a word spells by the bits of spec/opcode_table.json.
No row of the table gives bits: the part fetches no instruction and decodes none.
(The directive slots of R172 are data the Directive Unit reads from memory; Machine/Operands.lean reads
their fields.)
-/

namespace Sys2Proof

/-- No row of the table gives bits, so no word spells a command. -/
def decodeTableWord (_nbits _w : Nat) : Option Instr := none

end Sys2Proof
end

