-- ==== Sys2Proof/Config.lean ====
section
/-!
DEFINITION. The numbers the manual fixes for the part.
The manual leaves no value of a result open, so there is no free value here (see NOTES.md).
-/

namespace Sys2Proof.Config

/-- R1: circuit records are numbered 0 … 511. -/
def circuits : Nat := 512

/-- R10: the entry map holds 8192 entries. -/
def indices : Nat := 8192

/-- R11: the channel map and the evidence records are numbered 0 … 511. -/
def channels : Nat := 512

/-- R8: the circuit counts saturate at 255. -/
def countMax : Nat := 255

/-- R66: the arrival queue holds up to 32 arrivals. -/
def arrivalRoom : Nat := 32

/-- R70: the run count saturates at 15. -/
def runMax : Nat := 15

/-- R48: the journal holds at most 384 records. -/
def journalRoom : Nat := 384

/-- R51: HALF is set while the occupancy is 192 or more. -/
def journalHalf : Nat := 192

/-- R40: the Pass Path is preferred while the starvation count is below 8. -/
def starvationLimit : Nat := 8

/-- R151: the directive ring has 64 slots. -/
def ringSlots : Nat := 64

/-- R118: the restore list holds up to 8 circuits. -/
def restoreRoom : Nat := 8

/-- R36: the closing-word hold limit, in reference clock periods (20 µs). -/
def holdPeriods : Nat := 500

/-- R42: the downstream timeout, in reference clock periods (4 µs). -/
def timeoutPeriods : Nat := 100

/-- R169: the length of the ATTN pulse, in reference clock periods (1 µs). -/
def attnPeriods : Nat := 25

/-- Section 0.6: one tick of 1 ms is 25 000 periods of the 25.000 MHz reference clock. -/
def periodsPerTick : Nat := 25000

/-- R160 check 8: the local memory bus addresses octets 0 … 3FFF FFFFh. -/
def busEnd : Nat := 0x40000000

end Sys2Proof.Config
end

