-- ==== Sys2Proof/Machine/State.lean ====
section
/-!
DEFINITION. The state of the part, block by block as section 0.3 divides it, as plain data; the reasons
a command can stop; and the state right after reset. INVENTORY.md lists every item with its rule.
-/

namespace Sys2Proof.Machine

/-- A table indexed by number, as the list of its entries that differ from the table's reset value,
keys strictly rising. Machine/Table.lean holds its operations. -/
abbrev Table (α : Type) := List (Nat × α)

/-! ### The Circuit Store (chapter 1) -/

/-- R12: the mode. -/
inductive Mode where
  | watch | guard
  deriving DecidableEq, Repr

/-- R2: a circuit's state. -/
inductive CircuitState where
  | empty | loading | settled | drifted | faulted | restoring
  | held | pending | confirmed | degraded | broken | silent
  deriving DecidableEq, Repr

/-- R7, R118: the states a circuit can join a window from, or be restored from. -/
inductive OutsideState where
  | settled | drifted | faulted
  deriving DecidableEq, Repr

/-- R1, R122: the result of the close sweep for a circuit. -/
inductive SweepResult where
  | unchanged | changed | new | unreadable
  deriving DecidableEq, Repr

/-- R7, R102: the condition a circuit entered the window in. -/
inductive EntryCondition where
  | good | bad | unknown
  deriving DecidableEq, Repr

/-- R134: a verdict cause. -/
inductive VerdictCause where
  | matched | powerLow | powerHigh | tagMismatch | unequipped | dark | noArrivals | noEvidence | unreadable
  deriving DecidableEq, Repr

/-- R9, R131: how the last restore of a circuit ended; `failed n` names the entry position. -/
inductive RestoreOutcome where
  | done
  | failed (position : Nat)
  deriving DecidableEq, Repr

/-- R1: a circuit record, each field with its reset value. An optional field that is absent is `none`.
While a capture runs, `baseline` holds the words read so far (R6, log entry 16). -/
structure Circuit where
  state : CircuitState := .empty
  prior : Option OutsideState := none
  channel : Option Nat := none
  tag : Tag := zeroTag
  persistence : Nat := 1
  tolerance : Nat := 0
  floor : Int := -5000
  shift : Nat := 0
  entries : List Nat := []
  baseline : Option (List Word) := none
  swept : Option (List Word) := none
  sweepResult : Option SweepResult := none
  reference : Option Int := none
  entryCondition : Option EntryCondition := none
  undeclared : Bool := false
  redeclared : Bool := false
  changeCount : Nat := 0
  fenceHits : Nat := 0
  cause : Option VerdictCause := none
  verdictChanges : Nat := 0
  restoreOutcome : Option RestoreOutcome := none
  suspect : Bool := false
  deriving DecidableEq, Repr

/-- R10: an entry of the entry map. -/
structure MapEntry where
  owner : Option Nat := none
  fenced : Bool := false
  deriving DecidableEq, Repr

/-- The Circuit Store: the circuit table (R1), the entry map (R10), the channel map (R11), the mode
(R12) and the twelve state counts by circuit state code (R16). -/
structure Store where
  circuits : Table Circuit := []
  entryMap : Table MapEntry := []
  channelMap : Table (Option Nat) := []
  mode : Mode := .watch
  counts : Table Nat := [(0, 512)]
  deriving DecidableEq, Repr

/-! ### The Pass Path and the Memory Arbiter (chapter 2) -/

/-- R27: an address class, with the place inside its region. -/
inductive AddrClass where
  | directive (slot word : Nat)
  | connection (index : Nat)
  | landing (channel word : Nat)
  | consumerWord
  | attentionWord
  | other
  deriving DecidableEq, Repr

/-- The access a master presents (section 2.1), with the octet address and the class it was given when
presented (R27, R28). -/
structure Access where
  addr : Nat
  op : AccessOp
  master : Master
  cls : AddrClass
  deriving DecidableEq, Repr

/-- R26: the write in the posted-write buffer. -/
structure Posted where
  addr : Nat
  data : Word
  lanes : Lanes
  master : Master
  cls : AddrClass
  deriving DecidableEq, Repr

/-- R26: the upstream step, with the access presented; HOLD counts the hold time in periods. -/
inductive UpStep where
  | idle
  | drainWait (a : Access)
  | hold (a : Access) (periods : Nat)
  | readOut (a : Access)
  deriving DecidableEq, Repr

/-- What the upstream group's acknowledge, error and data pins give a master (R29, R31, R43, R44). -/
inductive Response where
  | acknowledge
  | readData (data : Word)
  | error
  deriving DecidableEq, Repr

/-- The answer that completed the last access, and the master it went to, until the next access is presented
(DESIGN CHOICE, log entry 14). -/
structure Answer where
  master : Master
  response : Response
  deriving DecidableEq, Repr

/-- R26: the Pass Path. The address classes are those of the current layout (`State.layout`). -/
structure PassPath where
  buffer : Option Posted := none
  step : UpStep := .idle
  assembly : Table Tag := []
  lateMarks : Table Bool := []
  answer : Option Answer := none
  deriving DecidableEq, Repr

/-- R40: the four requesters of the downstream port. -/
inductive Requester where
  | passPath | directive | sweep | report
  deriving DecidableEq, Repr

/-- A request for the downstream port: the octet address, a write's data and lanes (`none` for a read),
the master of a forwarded access (`none` for an internal one), whether it is the retry of R45, and whether
its requester has been stopped, so that its result is to be discarded (R113, R125). -/
structure Request where
  addr : Nat
  write : Option (Word × Lanes) := none
  master : Option Master := none
  retry : Bool := false
  stale : Bool := false
  deriving DecidableEq, Repr

/-- The access that has the downstream port, and the periods counted since its grant (R42). -/
structure Grant where
  who : Requester
  request : Request
  periods : Nat := 0
  deriving DecidableEq, Repr

/-- R46: the kind of a downstream fault record. -/
inductive FaultKind where
  | none | read | write | directive | sweep | report
  deriving DecidableEq, Repr

/-- R46: the downstream fault record. -/
structure FaultRecord where
  addr : Nat := 0
  kind : FaultKind := .none
  master : Master := 0
  deriving DecidableEq, Repr

/-- The Memory Arbiter (R40 to R46): the starvation count, the waiting request of each internal requester,
the access in progress and the fault record. The Pass Path's waiting request is its posted write, or the
read presented in READ_OUT. -/
structure Arbiter where
  starvation : Nat := 0
  directive : Option Request := none
  sweep : Option Request := none
  report : Option Request := none
  port : Option Grant := none
  fault : FaultRecord := {}
  deriving DecidableEq, Repr

/-! ### The Change Journal (chapter 3) -/

/-- R32: the phase of a capture. -/
inductive Phase where
  | outside | opened | closed
  deriving DecidableEq, Repr

/-- R58: a classification. -/
inductive Classification where
  | declared | undeclared | drift | fenced | stray
  deriving DecidableEq, Repr

/-- R47: the fields a change record has from its storing on. -/
structure ChangeRecord where
  seq : BitVec 16
  index : Nat
  value : Word
  lanes : Lanes
  master : Master
  phase : Phase
  fenced : Bool
  deriving DecidableEq, Repr

/-- R47: a classified record, with the classification and the owner the classifier found. -/
structure Judged where
  record : ChangeRecord
  classification : Classification
  owner : Option Nat
  deriving DecidableEq, Repr

/-- R55: the drift-sweep demand. -/
inductive Demand where
  | none | owed | running | runningAndOwed
  deriving DecidableEq, Repr

/-- The Change Journal. R49: `judged` are the records from the report position to the classify position,
`waiting` those from the classify position to the capture point, oldest first. R52: `overrun` is the flag
OVERRUN, carrying a phase while set. -/
structure Journal where
  judged : List Judged := []
  waiting : List ChangeRecord := []
  nextSeq : BitVec 16 := 0
  overrun : Option Phase := none
  demand : Demand := .none
  deriving DecidableEq, Repr

/-! ### The Trace Monitor (chapters 4 and 5) -/

/-- A timer on the 1 ms tick: the silence timers (R70), the deadline and settle timers (R97). -/
inductive Timer where
  | stopped
  | running (ms : Nat)
  | expired
  deriving DecidableEq, Repr

/-- R66: the tag state of an arrival. -/
inductive TagState where
  | valid | noFrame
  deriving DecidableEq, Repr

/-- R66: an arrival. -/
structure Arrival where
  channel : Nat
  tag : Tag
  tagState : TagState
  power : Int
  deriving DecidableEq, Repr

/-- R70: a channel's evidence record, each field with its reset value. -/
structure Evidence where
  candidate : Option Tag := none
  run : Nat := 0
  accepted : Option Tag := none
  power : Option Int := none
  dark : Bool := false
  gap : Bool := false
  silence : Timer := .stopped
  deriving DecidableEq, Repr

/-- The Trace Monitor: the arrival queue, head first (R66), the evidence records (R70) and the silence
limit in ms (R76). -/
structure Trace where
  arrivals : List Arrival := []
  evidence : Table Evidence := []
  silenceLimit : Nat := 60000
  deriving DecidableEq, Repr

/-! ### The Window Controller (chapter 6) -/

/-- R97: the window state. -/
inductive WindowState where
  | noLayout | quiet | opened | settling | sweeping | verifying | concluded
  deriving DecidableEq, Repr

/-- R97: the Window Controller; `settleTime`, `verifyLimit` and `steadyTime` are held in seconds (R101). -/
structure Window where
  state : WindowState := .noLayout
  number : BitVec 16 := 0
  overrun : Bool := false
  overtime : Bool := false
  deadline : Timer := .stopped
  settle : Timer := .stopped
  settleTime : Nat := 0
  verifyLimit : Nat := 7200
  steadyTime : Nat := 0
  workSet : Table Bool := []
  deriving DecidableEq, Repr

/-! ### The Sweep Engine (chapter 7) -/

/-- R118: the current job with its job circuit, close sweep set, position (circuit and entry position),
words in hand and earlier state. -/
inductive Job where
  | none
  | capture (circuit position : Nat)
  | closeSweep (set : List Nat) (circuit position : Nat) (words : List Word)
  | driftSweep (circuit position : Nat)
  | restore (circuit position : Nat) (earlier : OutsideState)
  deriving DecidableEq, Repr

/-- R118: the Sweep Engine. `held` is the address, and for a write the word, of an access whose request is held
(R120). -/
structure Sweep where
  job : Job := .none
  held : Option (Nat × Option Word) := none
  captureRequest : Option Nat := none
  driftRequest : Bool := false
  restoreList : List Nat := []
  deriving DecidableEq, Repr

/-! ### The Verdict Unit (chapter 8) -/

/-- R133: a timer of the Verdict Unit; a stopped timer keeps its remaining time in ms. -/
structure VerdictTimer where
  running : Bool := false
  remaining : Nat := 0
  deriving DecidableEq, Repr

/-- R133: the Verdict Unit's timers. -/
structure Verdict where
  limit : VerdictTimer := {}
  steady : VerdictTimer := {}
  deriving DecidableEq, Repr

/-! ### The Directive Unit (chapter 9) -/

/-- R151: the step of the Directive Unit. FETCHING holds the words of the slot read so far. COMPLETING
holds the completion writes left, as slot and word 0, the first being the one in progress, and by how many
slots the unit advances at the end. `checked` is the model's own: the chain has passed R155 and its
execution, a step of its own in the table, is next (DESIGN CHOICE, log entry 8). -/
inductive DirectiveStep where
  | idle
  | fetching (words : List Word)
  | chainWait
  | checked
  | held
  | completing (left : List (Nat × Word)) (advance : Nat)
  deriving DecidableEq, Repr

/-- R151: the Directive Unit; `chain` is the slot assembly, the fetched slots' eight words each. -/
structure DirectiveUnit where
  nextSlot : Nat := 0
  ready : Table Bool := []
  step : DirectiveStep := .idle
  chain : List (List Word) := []
  deriving DecidableEq, Repr

/-! ### The Report Unit (chapter 10) -/

/-- R165: what a report record in flight reports; a CIRCUIT report remembers the fence hits it took. -/
inductive RecordItem where
  | window
  | circuit (circuit hits : Nat)
  | change
  deriving DecidableEq, Repr

/-- R163, R166: the report writer. WRITING holds the record's item, its octet address, the words left (the
first is in progress) and whether a LAYOUT has overtaken the record. HOLD_OFF holds the time left in ms. -/
inductive ReportWriter where
  | idle
  | writing (item : RecordItem) (base : Nat) (left : List (Nat × Word)) (overtaken : Bool)
  | holdOff (ms : Nat)
  deriving DecidableEq, Repr

/-- R163, R168: the summary writer. WRITING holds the fixed base, the words left by word number (the first
is in progress) and the causes of the snapshot. -/
inductive SummaryWriter where
  | idle
  | writing (base : Nat) (left : List (Nat × Word)) (snapshot : BitVec 9)
  | holdOff (ms : Nat)
  deriving DecidableEq, Repr

/-- Section 10.5: the nine attention causes. -/
inductive Cause where
  | concluded | overtime | journalHalf | journalOverrun | fenceHit | drift | refused | busFault
  | restoreDone
  deriving DecidableEq, Repr

/-- R163: the Report Unit. Sets of causes are nine bits by attention cause bit (chapter 11). `attn` is the
ATTN line: `some n` is high with n periods of the pulse left. -/
structure ReportUnit where
  producer : BitVec 16 := 0
  consumer : BitVec 16 := 0
  rejected : Bool := false
  owed : Table Bool := []
  windowOwed : Bool := false
  lastReported : Nat := 511
  writer : ReportWriter := .idle
  generation : BitVec 16 := 0
  wanted : Bool := false
  summary : SummaryWriter := .idle
  enables : BitVec 9 := 0x1FF
  pending : BitVec 9 := 0
  unseen : BitVec 9 := 0
  raised : BitVec 9 := 0
  attn : Option Nat := none
  assured : Bool := false
  deriving DecidableEq, Repr

/-! ### The part -/

/-- R160, R161: the current layout. `framers` has bit m set for framer master m. -/
structure Layout where
  connBase : Nat
  connCount : Nat
  landBase : Nat
  channelCount : Nat
  reportBase : Nat
  reportSize : Nat
  summaryBase : Nat
  framers : BitVec 16
  deriving DecidableEq, Repr

/-- R174: the sampled straps: n of DRING3 … DRING0, and BORD (true is high). -/
structure Straps where
  dring : BitVec 4 := 0
  bord : Bool := false
  deriving DecidableEq, Repr

/-- The whole part, and the queue of commands that wait, first in, first out (log entry 18). `prescale` counts the
reference clock periods of the current tick (section 0.6; DESIGN CHOICE, log entry 5). -/
structure State where
  pending : List Instr := []
  inReset : Bool := false
  straps : Straps := {}
  prescale : Nat := 0
  layout : Option Layout := none
  pass : PassPath := {}
  arbiter : Arbiter := {}
  store : Store := {}
  journal : Journal := {}
  trace : Trace := {}
  window : Window := {}
  sweep : Sweep := {}
  verdict : Verdict := {}
  directive : DirectiveUnit := {}
  report : ReportUnit := {}
  deriving DecidableEq, Repr

/-- The machine right after a reset has ended with every strap low: every item at the reset value of its
chapter, no command waiting. DESIGN CHOICE (log entries 2 and 3): the strap levels and the held settle
time. -/
def State.reset : State := {}

/-- The manual gives the part no way to stop, so no fault exists. -/
inductive Fault where
  deriving DecidableEq, Repr

/-- Why a command is not carried out. -/
inductive Refusal where
  /-- Raised by no command: every row of the table has its meaning. Safe. -/
  | notModelled (mnemonic : String)
  /-- Raised by a command that presents an upstream write with an empty lane set, which section 2.1 does
  not give (Sys2Proof/WellFormed.lean). Safe. -/
  | emptyLaneSet
  deriving DecidableEq, Repr

end Sys2Proof.Machine
end

