-- ==== Sys2Proof/Machine/Table.lean ====
section
/-!
DEFINITION. Reading and writing the tables of the part. A table lists, keys strictly rising, the entries
that differ from the table's reset value `d`, so that equal tables are equal data.
-/

namespace Sys2Proof.Machine

/-- The entry numbered `k`: the listed one, or the table's reset value. -/
def Table.get {α : Type} (d : α) : Table α → Nat → α
  | [], _ => d
  | (i, v) :: rest, k => if i = k then v else Table.get d rest k

/-- Lists the entry `(k, v)` before the first entry with a greater number. -/
def Table.insert {α : Type} (k : Nat) (v : α) : Table α → Table α
  | [] => [(k, v)]
  | (i, w) :: rest => if k < i then (k, v) :: (i, w) :: rest else (i, w) :: Table.insert k v rest

/-- Takes the entry numbered `k` off the list. -/
def Table.erase {α : Type} (k : Nat) (t : Table α) : Table α :=
  t.filter fun cell => cell.1 != k

/-- Makes the entry numbered `k` equal to `v`, listing it only if `v` is not the reset value. -/
def Table.set {α : Type} [DecidableEq α] (d : α) (t : Table α) (k : Nat) (v : α) : Table α :=
  if v = d then Table.erase k t else Table.insert k v (Table.erase k t)

/-- The keys rise strictly from `low` on, and no entry equals the reset value. -/
def Table.canonicalFrom {α : Type} [DecidableEq α] (d : α) : Nat → Table α → Bool
  | _, [] => true
  | low, (i, v) :: rest => decide (low ≤ i) && decide (v ≠ d) && Table.canonicalFrom d (i + 1) rest

/-- The canonical form: keys strictly rising, no entry equal to the reset value. -/
def Table.canonical {α : Type} [DecidableEq α] (d : α) (t : Table α) : Bool := Table.canonicalFrom d 0 t

/-- The numbers marked in a table of marks, rising. -/
def Table.marked (t : Table Bool) : List Nat :=
  (t.filter Prod.snd).map Prod.fst

end Sys2Proof.Machine
end

