-- ==== Sys2Proof/Machine/Flags.lean ====
section
/-!
DEFINITION. The marks, causes and lines that software sees: summary wanted (R168), owed reports (R165),
attention causes (R169, R170), the ASSURED line (R171), the fields of the Window Controller that make a
WINDOW report owed (R98), the journal's occupancy and flags (R51), and the downstream fault record (R46).
-/

namespace Sys2Proof.Machine

/-! ### Codes of chapter 11 -/

/-- Section 11.1: circuit state codes. -/
def CircuitState.code : CircuitState → Nat
  | .empty => 0 | .loading => 1 | .settled => 2 | .drifted => 3 | .faulted => 4 | .restoring => 5
  | .held => 6 | .pending => 7 | .confirmed => 8 | .degraded => 9 | .broken => 10 | .silent => 11

/-- Section 11.1: attention cause bits. -/
def Cause.bit : Cause → Nat
  | .concluded => 0 | .overtime => 1 | .journalHalf => 2 | .journalOverrun => 3 | .fenceHit => 4
  | .drift => 5 | .refused => 6 | .busFault => 7 | .restoreDone => 8

/-- The set holding one attention cause. -/
def Cause.mask (c : Cause) : BitVec 9 := BitVec.ofNat 9 (2 ^ c.bit)

/-! ### Reading the state -/

/-- The circuit record numbered `c` (R1). -/
def State.circuit (s : State) (c : Nat) : Circuit := Table.get {} s.store.circuits c

/-- The entry-map entry of connection index `i` (R10). -/
def State.mapEntry (s : State) (i : Nat) : MapEntry := Table.get {} s.store.entryMap i

/-- The circuit bound to channel `ch`, if any (R11). -/
def State.boundTo (s : State) (ch : Nat) : Option Nat := Table.get none s.store.channelMap ch

/-- The count of circuits in a state (R16). -/
def State.count (s : State) (st : CircuitState) : Nat := Table.get 0 s.store.counts st.code

/-- The evidence record of channel `ch` (R70). -/
def State.evidenceOf (s : State) (ch : Nat) : Evidence := Table.get {} s.trace.evidence ch

/-- R51: the number of records the journal holds. -/
def Journal.occupancy (j : Journal) : Nat := j.judged.length + j.waiting.length

/-- R51: flag EMPTY. -/
def Journal.empty (j : Journal) : Bool := j.occupancy == 0

/-- R51: flag HALF. -/
def Journal.half (j : Journal) : Bool := decide (Config.journalHalf ≤ j.occupancy)

/-- R51: flag FULL. -/
def Journal.full (j : Journal) : Bool := j.occupancy == Config.journalRoom

/-- R64: the open backlog, the unclassified records of phase OPEN. -/
def Journal.openBacklog (j : Journal) : Nat := (j.waiting.filter fun r => r.phase = .opened).length

/-! ### Marks -/

/-- R168: summary wanted becomes yes. -/
def State.wantSummary (s : State) : State := { s with report := { s.report with wanted := true } }

/-- R168: summary wanted becomes yes if a body item changes. -/
def State.wantSummaryIf (s : State) (changed : Bool) : State := if changed then s.wantSummary else s

/-- R165: a CIRCUIT report is made owed for circuit `c`. -/
def State.oweCircuit (s : State) (c : Nat) : State :=
  { s with report := { s.report with owed := Table.set false s.report.owed c true } }

/-- R165: a WINDOW report is made owed. -/
def State.oweWindow (s : State) : State := { s with report := { s.report with windowOwed := true } }

/-! ### Attention (section 10.5) -/

/-- R169: a cause raised with its enable set joins the pending set, its unseen and raised-since-snapshot
marks become yes, and a set that was empty gives an ATTN pulse. A cause raised with its enable clear changes
nothing. -/
def State.raise (s : State) (c : Cause) : State :=
  let r := s.report
  if r.enables &&& c.mask = 0 then s
  else
    { s with report := { r with
        pending := r.pending ||| c.mask
        unseen := r.unseen ||| c.mask
        raised := r.raised ||| c.mask
        attn := if r.pending = 0 then some Config.attnPeriods else r.attn
        wanted := r.wanted || decide (r.pending &&& c.mask = 0) } }

/-- R170: each cause present in the data read is removed from the pending set if its unseen mark is no. -/
def State.clearAttention (s : State) (data : Word) : State :=
  let r := s.report
  let left := r.pending &&& ~~~(data.setWidth 9 &&& ~~~r.unseen)
  { s with report := { r with pending := left, wanted := r.wanted || decide (left ≠ r.pending) } }

/-! ### ASSURED -/

/-- R171: the assured condition. -/
def State.assuredCondition (s : State) : Bool :=
  decide (s.window.state = .quiet) && decide (s.count .empty < Config.circuits)
    && decide (s.count .settled = Config.circuits - s.count .empty)

/-- R171: the ASSURED line follows the condition. -/
def State.updateAssured (s : State) : State :=
  { s with report := { s.report with assured := s.assuredCondition } }

/-! ### The window's own fields -/

/-- R98: a change of the window state makes a WINDOW report owed and the summary wanted; ASSURED follows. -/
def State.setWindowState (s : State) (w : WindowState) : State :=
  if s.window.state = w then s
  else ({ s with window := { s.window with state := w } }).oweWindow.wantSummary.updateAssured

/-- R98: a change of the window number makes a WINDOW report owed and the summary wanted. -/
def State.setWindowNumber (s : State) (n : BitVec 16) : State :=
  if s.window.number = n then s
  else ({ s with window := { s.window with number := n } }).oweWindow.wantSummary

/-- R98: a change of a window flag makes a WINDOW report owed and the summary wanted. -/
def State.setWindowFlags (s : State) (overrun overtime : Bool) : State :=
  if s.window.overrun = overrun ∧ s.window.overtime = overtime then s
  else ({ s with window := { s.window with overrun, overtime } }).oweWindow.wantSummary

/-- R104: a circuit joins (`true`) or leaves the work set; a change makes a WINDOW report owed. -/
def State.setWorkMember (s : State) (c : Nat) (member : Bool) : State :=
  if Table.get false s.window.workSet c = member then s
  else
    ({ s with window := { s.window with workSet := Table.set false s.window.workSet c member } }).oweWindow

/-- R103, R116: the work set becomes empty; a change makes a WINDOW report owed. -/
def State.clearWorkSet (s : State) : State :=
  if s.window.workSet = [] then s
  else ({ s with window := { s.window with workSet := [] } }).oweWindow

/-! ### The fault record -/

/-- R46: the fault record is written, replacing the previous one; the summary becomes wanted. -/
def State.writeFault (s : State) (addr : Nat) (kind : FaultKind) (master : Master) : State :=
  ({ s with arbiter := { s.arbiter with fault := { addr, kind, master } } }).wantSummary

end Sys2Proof.Machine
end

