-- ==== Sys2Proof/Machine/Operands.lean ====
section
/-!
DEFINITION. The formats of chapter 11: bit fields of words, byte lanes and the BORD mapping (R34), address
classes (R27), the directive slots the part reads (R172), and the records it writes (R172, R173).
-/

namespace Sys2Proof.Machine

/-! ### Bit fields -/

/-- Bits [lo + len − 1 : lo] of a word, unsigned. -/
def bits (w : Word) (lo len : Nat) : Nat := w.toNat / 2 ^ lo % 2 ^ len

/-- Bit `i` of a word. -/
def bit (w : Word) (i : Nat) : Bool := w.getLsbD i

/-- A 16-bit field as a signed number, two's complement. -/
def signed16 (n : Nat) : Int := (BitVec.ofNat 16 n).toInt

/-- A signed number as the value of a 16-bit field. -/
def field16 (x : Int) : Nat := (BitVec.ofInt 16 x).toNat

/-- The word whose fields, given as low bit, length and value, are these and whose other bits are zero. -/
def packWord (fields : List (Nat × Nat × Nat)) : Word :=
  BitVec.ofNat 32 (fields.foldl (fun n f => n + f.2.2 % 2 ^ f.2.1 * 2 ^ f.1) 0)

/-- A flag as a one-bit field's value. -/
def flag (b : Bool) : Nat := if b then 1 else 0

/-- The nearer end of `lo … hi` for a value outside it (section 0.6, Numbers). -/
def clampNat (lo hi n : Nat) : Nat := max lo (min hi n)

/-- The nearer end of `lo … hi` for a value outside it (section 0.6, Numbers). -/
def clampInt (lo hi n : Int) : Int := max lo (min hi n)

/-! ### Byte lanes and path tags (R34, R174) -/

/-- The octet in byte lane `l` of a word. -/
def laneOctet (w : Word) (l : Nat) : Octet := w.extractLsb' (8 * l) 8

/-- The byte lane that carries octet `j` of a group of four: lane `j` with BORD low, lane 3 − `j` with BORD
high (R34, R174). -/
def laneOf (bord : Bool) (j : Nat) : Nat := if bord then 3 - j else j

/-- R34: the assembly after a write to word `w` of the slot: the octets in the write's lanes replaced. -/
def assembleTag (bord : Bool) (w : Nat) (data : Word) (lanes : Lanes) (old : Tag) : Tag :=
  Vector.ofFn fun i : Fin 12 =>
    let l := laneOf bord (i.val % 4)
    if i.val / 4 = w ∧ lanes.getLsbD l then laneOctet data l else old[i]

/-- R3, R172: the tag carried by three words. -/
def tagOfWords (bord : Bool) (w0 w1 w2 : Word) : Tag :=
  assembleTag bord 2 w2 0xF (assembleTag bord 1 w1 0xF (assembleTag bord 0 w0 0xF zeroTag))

/-- R47: the value of a change record, zero in every lane outside the lane set. -/
def maskLanes (data : Word) (lanes : Lanes) : Word :=
  packWord ((List.range 4).map fun l =>
    (8 * l, 8, if lanes.getLsbD l then (laneOctet data l).toNat else 0))

/-! ### Address classes (R27) -/

/-- R174, R27: the directive ring's base, n × 16 MiB. -/
def State.ringBase (s : State) : Nat := s.straps.dring.toNat * 0x1000000

/-- The octet address of a word of a directive slot (R27, chapter 9). -/
def State.slotAddr (s : State) (slot word : Nat) : Nat := s.ringBase + 32 * slot + 4 * word

/-- The octet address of connection index `i` in the current layout (section 0.6). -/
def State.connAddr (s : State) (i : Nat) : Nat := (s.layout.elim 0 Layout.connBase) + 4 * i

/-- R27: the class of an octet address under a layout, with the directive ring at `ring`. -/
def classOf (ring : Nat) (layout : Option Layout) (a : Nat) : AddrClass :=
  if ring ≤ a ∧ a < ring + 2048 then .directive ((a - ring) / 32) ((a - ring) % 32 / 4)
  else
    match layout with
    | none => .other
    | some l =>
      if l.connBase ≤ a ∧ a < l.connBase + 4 * l.connCount then .connection ((a - l.connBase) / 4)
      else if l.landBase ≤ a ∧ a < l.landBase + 16 * l.channelCount then
        .landing ((a - l.landBase) / 16) ((a - l.landBase) % 16 / 4)
      else if a = l.summaryBase + 52 then .consumerWord
      else if a = l.summaryBase + 8 then .attentionWord
      else .other

/-- R27: the class of an octet address under the regions now known. -/
def State.addrClass (s : State) (a : Nat) : AddrClass := classOf s.ringBase s.layout a

/-- Section 0.6: a framer master is one named in the framer master set of the current layout. -/
def State.isFramer (s : State) (m : Master) : Bool :=
  s.layout.elim false fun l => l.framers.getLsbD m.toNat

/-! ### Word 0 of a directive slot (R172) -/

/-- Section 11.1: the directive kinds. -/
inductive DirectiveKind where
  | layout | setPolicy | load | drop | openWindow | mark | close | abandon | accept | recheck | restore
  deriving DecidableEq, Repr

/-- Section 11.1: the kind a kind code names. -/
def kindOfCode : Nat → Option DirectiveKind
  | 1 => some .layout | 2 => some .setPolicy | 3 => some .load | 4 => some .drop
  | 5 => some .openWindow | 6 => some .mark | 7 => some .close | 8 => some .abandon
  | 9 => some .accept | 10 => some .recheck | 11 => some .restore | _ => none

/-- R157: the outcomes. -/
inductive DirectiveOutcome where
  | done | refusedState | refusedRange | noLayout | busy | duplicate | conflict | malformed | fault
  | fetchFault | continued
  deriving DecidableEq, Repr

/-- Section 11.1: outcome codes. -/
def DirectiveOutcome.code : DirectiveOutcome → Nat
  | .done => 1 | .refusedState => 2 | .refusedRange => 3 | .noLayout => 4 | .busy => 5
  | .duplicate => 6 | .conflict => 7 | .malformed => 8 | .fault => 9 | .fetchFault => 10
  | .continued => 11

/-- R157: the outcomes that raise the attention cause REFUSED. -/
def DirectiveOutcome.isRefusal : DirectiveOutcome → Bool
  | .refusedState | .refusedRange | .noLayout | .busy | .duplicate | .conflict | .malformed => true
  | .done | .fault | .fetchFault | .continued => false

/-- R156: the outcome of a directive and its detail. -/
structure DirectiveAnswer where
  outcome : DirectiveOutcome
  detail : Nat
  deriving DecidableEq, Repr

/-- R172: the ready mark of a word 0. -/
def readyMark (w : Word) : Bool := bit w 13

/-- R172: the continuation mark of a word 0. -/
def continuationMark (w : Word) : Bool := bit w 12

/-- R172, R157: the word 0 the part writes: kind, continuation mark and tag as fetched, ready mark clear. -/
def answerWord (w : Word) (a : DirectiveAnswer) : Word :=
  packWord [(0, 8, bits w 0 8), (8, 4, bits w 8 4), (12, 1, bits w 12 1), (14, 4, a.outcome.code),
    (18, 14, a.detail)]

/-! ### The fields of each kind (R172) -/

/-- Word `k` of slot `n` of a chain. -/
def chainWord (chain : List (List Word)) (n k : Nat) : Word := (chain.getD n []).getD k 0

/-- The kind of the directive whose chain this is, from its first slot's word 0 (R154). -/
def chainKind (chain : List (List Word)) : Option DirectiveKind :=
  kindOfCode (bits (chainWord chain 0 0) 8 4)

/-- The two 16-bit halves of a word, low half first. -/
def halves (w : Word) : List Nat := [bits w 0 16, bits w 16 16]

/-- The 14 list positions of a continuation slot of OPEN or MARK. -/
def continuationList (chain : List (List Word)) (n : Nat) : List Nat :=
  (List.range 7).flatMap fun k => halves (chainWord chain n (k + 1))

/-- R172: the work count of an OPEN. -/
def openCount (chain : List (List Word)) : Nat := bits (chainWord chain 0 1) 16 8

/-- R172: the mark count of a MARK. -/
def markCount (chain : List (List Word)) : Nat := bits (chainWord chain 0 1) 0 8

/-- Section 9.4: the slots a directive needs. -/
def slotsNeeded (k : DirectiveKind) (chain : List (List Word)) : Nat :=
  match k with
  | .load => 2
  | .openWindow => if openCount chain ≤ 4 then 1 else if openCount chain ≤ 18 then 2 else 3
  | .mark => if markCount chain ≤ 13 then 1 else if markCount chain ≤ 27 then 2 else 3
  | .layout | .setPolicy | .drop | .close | .abandon | .accept | .recheck | .restore => 1

/-- The fields of a LAYOUT; the report size is still a code. -/
structure LayoutFields where
  connBase : Nat
  connCount : Nat
  landBase : Nat
  channelCount : Nat
  reportBase : Nat
  sizeCode : Nat
  summaryBase : Nat
  framers : BitVec 16
  deriving DecidableEq, Repr

/-- R172: the fields of a LAYOUT. -/
def layoutFields (chain : List (List Word)) : LayoutFields :=
  let w := chainWord chain 0
  { connBase := (w 1).toNat, connCount := bits (w 2) 0 16, channelCount := bits (w 2) 16 16,
    landBase := (w 3).toNat, reportBase := (w 4).toNat, sizeCode := bits (w 5) 0 3,
    framers := (w 5).extractLsb' 16 16, summaryBase := (w 6).toNat }

/-- Section 11.1: the report ring size a size code names. -/
def reportSizeOf : Nat → Option Nat
  | 0 => some 64 | 1 => some 128 | 2 => some 256 | 3 => some 512 | 4 => some 1024 | _ => none

/-- The fields of a SET_POLICY. -/
structure PolicyFields where
  modeCode : Nat
  enables : BitVec 9
  deriving DecidableEq, Repr

/-- R172: the fields of a SET_POLICY. -/
def policyFields (chain : List (List Word)) : PolicyFields :=
  { modeCode := bits (chainWord chain 0 1) 0 8, enables := (chainWord chain 0 1).extractLsb' 16 9 }

/-- Section 11.1: the mode a mode code names. -/
def modeOf : Nat → Option Mode
  | 1 => some .watch | 2 => some .guard | _ => none

/-- The fields of a LOAD; the judgement parameters are as given, not yet clamped. -/
structure LoadFields where
  circuit : Nat
  channel : Nat
  tag : Tag
  persistence : Nat
  shift : Nat
  tolerance : Nat
  floor : Int
  entryCount : Nat
  entries : List Nat
  deriving DecidableEq, Repr

/-- R172: the fields of a LOAD; the entries beyond the count are not read. -/
def loadFields (bord : Bool) (chain : List (List Word)) : LoadFields :=
  let w := chainWord chain 0
  let count := bits (w 6) 16 8
  { circuit := bits (w 1) 0 16, channel := bits (w 1) 16 16, tag := tagOfWords bord (w 2) (w 3) (w 4),
    persistence := bits (w 5) 0 8, shift := bits (w 5) 8 8, tolerance := bits (w 5) 16 16,
    floor := signed16 (bits (w 6) 0 16), entryCount := count,
    entries := (halves (w 7) ++ halves (chainWord chain 1 1) ++ halves (chainWord chain 1 2)).take count }

/-- R172: the circuit number of a DROP or RESTORE. -/
def circuitField (chain : List (List Word)) : Nat := bits (chainWord chain 0 1) 0 16

/-- R172: the option of an ACCEPT, degraded acceptable. -/
def degradedAcceptable (chain : List (List Word)) : Bool := bit (chainWord chain 0 1) 0

/-- The fields of an OPEN; the timer fields are as given, not yet clamped. -/
structure OpenFields where
  number : BitVec 16
  workCount : Nat
  steady : Nat
  deadline : Nat
  settle : Nat
  verify : Nat
  silence : Nat
  work : List Nat
  deriving DecidableEq, Repr

/-- R172: the fields of an OPEN; the list positions beyond the count are not read. -/
def openFields (chain : List (List Word)) : OpenFields :=
  let w := chainWord chain 0
  { number := (w 1).setWidth 16, workCount := openCount chain, steady := bits (w 1) 24 8,
    deadline := bits (w 2) 0 16, settle := bits (w 2) 16 16, verify := bits (w 3) 0 16,
    silence := bits (w 3) 16 16,
    work := (halves (w 4) ++ halves (w 5) ++ continuationList chain 1 ++ continuationList chain 2).take
      (openCount chain) }

/-- R172: the circuits a MARK names; the list positions beyond the count are not read. -/
def markList (chain : List (List Word)) : List Nat :=
  let w := chainWord chain 0
  ([bits (w 1) 16 16] ++ halves (w 2) ++ halves (w 3) ++ halves (w 4) ++ halves (w 5) ++ halves (w 6)
    ++ halves (w 7) ++ continuationList chain 1 ++ continuationList chain 2).take (markCount chain)

/-! ### The closing word (R172) -/

/-- R35: the tag state of a closing word; every code but 1 is NO_FRAME. -/
def closingTagState (w : Word) : TagState := if bits w 16 8 = 1 then .valid else .noFrame

/-- R35: the power reading of a closing word, as written. -/
def closingPower (w : Word) : Int := signed16 (bits w 0 16)

/-! ### Records the part writes (R173) -/

/-- Section 11.1: window state codes. -/
def WindowState.code : WindowState → Nat
  | .noLayout => 0 | .quiet => 1 | .opened => 2 | .settling => 3 | .sweeping => 4 | .verifying => 5
  | .concluded => 6

/-- Section 11.1: verdict cause codes; absent is 0. -/
def causeCode : Option VerdictCause → Nat
  | none => 0 | some .matched => 1 | some .powerLow => 2 | some .powerHigh => 3
  | some .tagMismatch => 4 | some .unequipped => 5 | some .dark => 6 | some .noArrivals => 7
  | some .noEvidence => 8 | some .unreadable => 9

/-- Section 11.1: entry condition codes; absent is 0. -/
def entryConditionCode : Option EntryCondition → Nat
  | none => 0 | some .good => 1 | some .bad => 2 | some .unknown => 3

/-- Section 11.1: sweep result codes; absent is 0. -/
def sweepResultCode : Option SweepResult → Nat
  | none => 0 | some .unchanged => 1 | some .changed => 2 | some .new => 3 | some .unreadable => 4

/-- Section 11.1: restore outcome codes; absent is 0. -/
def restoreOutcomeCode : Option RestoreOutcome → Nat
  | none => 0 | some .done => 1 | some (.failed n) => n + 1

/-- Section 11.1: phase codes. -/
def Phase.code : Phase → Nat
  | .outside => 0 | .opened => 1 | .closed => 2

/-- Section 11.1: classification codes. -/
def Classification.code : Classification → Nat
  | .declared => 1 | .undeclared => 2 | .drift => 3 | .fenced => 4 | .stray => 5

/-- Section 11.1: fault kind codes. -/
def FaultKind.code : FaultKind → Nat
  | .none => 0 | .read => 1 | .write => 2 | .directive => 3 | .sweep => 4 | .report => 5

/-- R173: a power or deviation as a field's value; absent is −32768. -/
def powerField (p : Option Int) : Nat := field16 (p.getD (-32768))

/-- R167: the smoothed power of the circuit's channel; absent when it has none. -/
def State.powerOf (s : State) (r : Circuit) : Option Int := r.channel.bind fun ch => (s.evidenceOf ch).power

/-- R93: the deviation of a circuit, present when both powers are. -/
def State.deviationOf (s : State) (r : Circuit) : Option Int :=
  match s.powerOf r, r.reference with
  | some p, some q => some (p - q)
  | _, _ => none

/-- R173: word 0 of a report record. -/
def recordHead (number : BitVec 16) (kind : Nat) : Word := packWord [(0, 16, number.toNat), (16, 2, kind)]

/-- R173: the four words of a WINDOW report. -/
def State.windowRecord (s : State) : List Word :=
  let w := s.window
  [recordHead s.report.producer 1,
    packWord [(0, 16, w.number.toNat), (16, 4, w.state.code), (20, 1, flag w.overrun),
      (21, 1, flag w.overtime)],
    packWord [(0, 10, (Table.marked w.workSet).length)],
    packWord [(0, 32, s.verdict.limit.remaining)]]

/-- R173: the four words of a CIRCUIT report for circuit `c`. -/
def State.circuitRecord (s : State) (c : Nat) : List Word :=
  let r := s.circuit c
  [recordHead s.report.producer 2,
    packWord [(0, 9, c), (12, 4, r.state.code), (16, 4, causeCode r.cause),
      (20, 2, entryConditionCode r.entryCondition), (22, 3, sweepResultCode r.sweepResult),
      (25, 4, restoreOutcomeCode r.restoreOutcome), (31, 1, flag r.undeclared)],
    packWord [(0, 16, powerField (s.powerOf r)), (16, 16, powerField (s.deviationOf r))],
    packWord [(0, 8, r.changeCount), (8, 8, r.fenceHits), (16, 8, r.verdictChanges)]]

/-- R173: the four words of a CHANGE report. -/
def State.changeRecord (s : State) (j : Judged) : List Word :=
  let r := j.record
  [recordHead s.report.producer 3,
    r.value,
    packWord [(0, 16, r.seq.toNat), (16, 13, r.index)],
    packWord [(0, 4, r.lanes.toNat), (4, 4, r.master.toNat), (8, 2, r.phase.code),
      (10, 1, flag r.fenced), (12, 3, j.classification.code), (16, 10, j.owner.getD 512)]]

/-- R173: the 15 words of a summary rewrite by word number, with the generation given; the consumer word,
word 13, is never written (R168). -/
def State.summaryWords (s : State) (generation : BitVec 16) : List (Nat × Word) :=
  let w := s.window
  let r := s.report
  let j := s.journal
  let counts (a b : CircuitState) : Word := packWord [(0, 16, s.count a), (16, 16, s.count b)]
  [(0, packWord [(0, 16, generation.toNat)]),
    (1, packWord [(0, 16, w.number.toNat), (16, 4, w.state.code), (20, 1, flag w.overrun),
      (21, 1, flag w.overtime), (24, 1, flag (decide (s.store.mode = .guard))),
      (25, 1, flag r.rejected)]),
    (2, packWord [(0, 9, r.pending.toNat)]),
    (3, packWord [(0, 16, r.producer.toNat), (16, 16, r.consumer.toNat)]),
    (4, counts .empty .loading), (5, counts .settled .drifted), (6, counts .faulted .restoring),
    (7, counts .held .pending), (8, counts .confirmed .degraded), (9, counts .broken .silent),
    (10, packWord [(0, 9, j.occupancy), (12, 1, flag j.empty), (13, 1, flag j.half),
      (14, 1, flag j.full), (15, 1, flag j.overrun.isSome), (16, 2, j.overrun.elim 0 Phase.code),
      (24, 6, s.trace.arrivals.length)]),
    (11, packWord [(0, 32, s.arbiter.fault.addr)]),
    (12, packWord [(0, 3, s.arbiter.fault.kind.code), (4, 4, s.arbiter.fault.master.toNat),
      (16, 4, s.sweep.restoreList.length)]),
    (14, 0),
    (15, packWord [(0, 16, generation.toNat)])]

end Sys2Proof.Machine
end

