-- ==== Sys2Proof/Machine/Ops.lean ====
section
/-!
DEFINITION. The shared operations on circuits, maps and evidence records: the fence rule (R13), what every
state change does (R16), binding and evidence reset (R11, R80), claiming and freeing entries (R10), and
release (R17).
-/

namespace Sys2Proof.Machine

/-! ### Writing the tables -/

/-- The circuit record numbered `c` becomes `r`; no other effect. -/
def State.putCircuit (s : State) (c : Nat) (r : Circuit) : State :=
  { s with store := { s.store with circuits := Table.set {} s.store.circuits c r } }

/-- The circuit record numbered `c` is changed by `f`; no other effect. -/
def State.mapCircuit (s : State) (c : Nat) (f : Circuit → Circuit) : State := s.putCircuit c (f (s.circuit c))

/-- The entry-map entry of index `i` becomes `e`. -/
def State.putEntry (s : State) (i : Nat) (e : MapEntry) : State :=
  { s with store := { s.store with entryMap := Table.set {} s.store.entryMap i e } }

/-- The channel map entry of channel `ch` becomes `b`. -/
def State.putBinding (s : State) (ch : Nat) (b : Option Nat) : State :=
  { s with store := { s.store with channelMap := Table.set none s.store.channelMap ch b } }

/-- The count of circuits in state `st` becomes `n`; the summary becomes wanted (R16). -/
def State.putCount (s : State) (st : CircuitState) (n : Nat) : State :=
  ({ s with store := { s.store with counts := Table.set 0 s.store.counts st.code n } }).wantSummary

/-- The evidence record of channel `ch` becomes `e`. -/
def State.putEvidence (s : State) (ch : Nat) (e : Evidence) : State :=
  { s with trace := { s.trace with evidence := Table.set {} s.trace.evidence ch e } }

/-- The evidence record of channel `ch` is changed by `f`. -/
def State.mapEvidence (s : State) (ch : Nat) (f : Evidence → Evidence) : State :=
  s.putEvidence ch (f (s.evidenceOf ch))

/-- The silence timer of channel `ch` becomes `t`. -/
def State.setSilence (s : State) (ch : Nat) (t : Timer) : State :=
  s.mapEvidence ch fun e => { e with silence := t }

/-- The effect `f` for each number of a list in turn. -/
def State.forEach (s : State) (cs : List Nat) (f : State → Nat → State) : State := cs.foldl f s

/-- The effect `f` on the number, if there is one. -/
def State.forSome (s : State) (c : Option Nat) (f : State → Nat → State) : State := c.elim s (f s)

/-! ### Circuit states -/

/-- R2: the window circuit states. -/
def CircuitState.inWindow : CircuitState → Bool
  | .held | .pending | .confirmed | .degraded | .broken | .silent => true
  | .empty | .loading | .settled | .drifted | .faulted | .restoring => false

/-- R2: a circuit is loaded in every state except EMPTY. -/
def CircuitState.loaded (st : CircuitState) : Bool := decide (st ≠ .empty)

/-- SETTLED, DRIFTED or FAULTED, as a prior or earlier state. -/
def CircuitState.outside : CircuitState → Option OutsideState
  | .settled => some .settled
  | .drifted => some .drifted
  | .faulted => some .faulted
  | .empty | .loading | .restoring | .held | .pending | .confirmed | .degraded | .broken | .silent => none

/-- The circuit state that a prior or earlier state is. -/
def OutsideState.toState : OutsideState → CircuitState
  | .settled => .settled | .drifted => .drifted | .faulted => .faulted

/-- R123: BROKEN with cause UNREADABLE. -/
def Circuit.isUnreadable (r : Circuit) : Bool := decide (r.state = .broken ∧ r.cause = some .unreadable)

/-- The numbers of the circuits whose records satisfy `p`, in ascending order. -/
def State.circuitsWhere (s : State) (p : Circuit → Bool) : List Nat :=
  (List.range Config.circuits).filter fun c => p (s.circuit c)

/-- The window circuits, in ascending order. -/
def State.windowCircuits (s : State) : List Nat := s.circuitsWhere fun r => r.state.inWindow

/-- The loaded circuits, in ascending order. -/
def State.loadedCircuits (s : State) : List Nat := s.circuitsWhere fun r => r.state.loaded

/-- R8: an increment that stays at 255. -/
def bump (n : Nat) : Nat := min Config.countMax (n + 1)

/-! ### Fencing (R13, R14, R15) -/

/-- R13: whether the entries of a circuit in this state are fenced in this mode. -/
def fences (mode : Mode) : CircuitState → Bool
  | .pending | .confirmed | .degraded | .broken | .silent | .restoring => true
  | .loading | .settled | .drifted | .faulted => decide (mode = .guard)
  | .empty | .held => false

/-- R13: the fence rule for an owner. -/
def State.fenceRule (s : State) (owner : Option Nat) : Bool :=
  owner.elim false fun c => fences s.store.mode (s.circuit c).state

/-- The fenced flag of index `i` is rewritten under the fence rule. -/
def State.refence (s : State) (i : Nat) : State :=
  let e := s.mapEntry i
  s.putEntry i { e with fenced := s.fenceRule e.owner }

/-- R15: the mode changes, and with it the fenced flag of every entry-map entry; the mode already in force
leaves every flag as it was. -/
def State.setMode (s : State) (m : Mode) : State :=
  if s.store.mode = m then s
  else
    (({ s with store := { s.store with mode := m } }).forEach (s.store.entryMap.map Prod.fst)
      State.refence).wantSummary

/-! ### What every state change does (R16) -/

/-- R16: the circuit moves from one state's count to another's. -/
def State.moveCount (s : State) (old new : CircuitState) : State :=
  let t := s.putCount old (s.count old - 1)
  t.putCount new (t.count new + 1)

/-- R16: circuit `c` takes state `new`; if that changes its state, the fenced flags of its entries are
rewritten, a CIRCUIT report is made owed, the counts move and ASSURED follows (R171). -/
def State.setCircuitState (s : State) (c : Nat) (new : CircuitState) : State :=
  let r := s.circuit c
  if r.state = new then s
  else
    (((s.putCircuit c { r with state := new }).forEach r.entries State.refence).oweCircuit c).moveCount
      r.state new |>.updateAssured

/-! ### Evidence reset and binding (R11, R80) -/

/-- R80: the silence timer an evidence reset leaves: RUNNING with the full limit if the channel is bound to
a window circuit and the window is VERIFYING, otherwise STOPPED. -/
def State.resetSilence (s : State) (ch : Nat) : Timer :=
  if s.window.state = .verifying ∧ ((s.boundTo ch).elim false fun c => (s.circuit c).state.inWindow) then
    .running s.trace.silenceLimit
  else .stopped

/-- R80: an evidence reset of channel `ch`. -/
def State.resetEvidence (s : State) (ch : Nat) : State :=
  s.putEvidence ch { silence := s.resetSilence ch }

/-- R11, R79: channel `ch` is unbound; its evidence is kept and its silence timer becomes STOPPED. -/
def State.unbind (s : State) (ch : Nat) : State := (s.putBinding ch none).setSilence ch .stopped

/-- R11: circuit `c` binds channel `ch` if it was not bound to it, with an evidence reset of `ch`; a channel
it was bound to before is unbound. -/
def State.bind (s : State) (c ch : Nat) : State :=
  let old := (s.circuit c).channel
  if old = some ch then s
  else
    (((s.forSome old State.unbind).putBinding ch (some c)).mapCircuit c fun r =>
      { r with channel := some ch }).resetEvidence ch

/-! ### Entries (R10) -/

/-- R20, R22, R23: index `i` becomes owned by circuit `c`, fenced under the fence rule. -/
def State.claim (c : Nat) (s : State) (i : Nat) : State :=
  s.putEntry i { owner := some c, fenced := s.fenceRule (some c) }

/-- R17, R20, R23: index `i` becomes owner none, fenced no. -/
def State.unclaim (s : State) (i : Nat) : State := s.putEntry i {}

/-- R20, R22, R23: circuit `c` takes a new entry list: indices no longer listed are freed, newly listed ones
are claimed. -/
def State.retarget (s : State) (c : Nat) (new : List Nat) : State :=
  let old := (s.circuit c).entries
  let freed := s.forEach (old.filter fun i => !new.contains i) State.unclaim
  (freed.forEach (new.filter fun i => !old.contains i) (State.claim c)).mapCircuit c fun r =>
    { r with entries := new }

/-! ### The restore list -/

/-- R17, R20, R118: circuit `c` leaves the restore list, the others keeping their order; a change makes the
summary wanted. -/
def State.unlistRestore (s : State) (c : Nat) : State :=
  if s.sweep.restoreList.contains c then
    ({ s with sweep := { s.sweep with restoreList := s.sweep.restoreList.filter (· != c) } }).wantSummary
  else s

/-! ### Release (R17) -/

/-- R17: circuit `c` is released: its entries and its channel are freed, it leaves the restore list and the
work set, and every field of its record but fence hits returns to its reset value. -/
def State.release (s : State) (c : Nat) : State :=
  let r := s.circuit c
  let freed := (s.forEach r.entries State.unclaim).forSome r.channel State.unbind
  let unlisted := (freed.unlistRestore c).setWorkMember c false
  (unlisted.putCircuit c { state := r.state, fenceHits := r.fenceHits }).setCircuitState c .empty

/-! ### Saturating counts and causes of one circuit -/

/-- R8: the change count of circuit `c` rises by one. -/
def State.bumpChanges (s : State) (c : Nat) : State :=
  s.mapCircuit c fun r => { r with changeCount := bump r.changeCount }

end Sys2Proof.Machine
end

