-- ==== Sys2Proof/Machine/Requests.lean ====
section
/-!
DEFINITION. The requests that the internal requesters make of the Memory Arbiter (R40, R45), the Sweep
Engine's jobs from their start to the request of an access (R119, R120, R126, R130), and the journal's
drift-sweep request (R55).
-/

namespace Sys2Proof.Machine

/-! ### Requests -/

/-- R45: the Directive Unit requests a single-word internal access; a write carries all four lanes. -/
def State.requestDirective (s : State) (addr : Nat) (data : Option Word) : State :=
  { s with arbiter := { s.arbiter with directive := some { addr, write := data.map (·, 0xF) } } }

/-- R45: the Report Unit requests a single-word internal write. -/
def State.requestReport (s : State) (addr : Nat) (data : Word) : State :=
  { s with arbiter := { s.arbiter with report := some { addr, write := some (data, 0xF) } } }

/-- R120: the posted-write buffer holds a write to this address. -/
def State.bufferHolds (s : State) (addr : Nat) : Bool := s.pass.buffer.any fun p => p.addr == addr

/-- R40: an access of the Sweep Engine is requesting or in progress; while the engine has a job of its own
this is the read of a close sweep that ABANDON stopped. -/
def State.sweepOutstanding (s : State) : Bool :=
  s.arbiter.sweep.isSome || s.arbiter.port.any fun g => g.who == .sweep

/-- R120: the access of the current job at its position: the connection word's address, and the baseline
word that a restore writes (R130). -/
def State.sweepAccess (s : State) : Option (Nat × Option Word) :=
  let addrAt (c p : Nat) : Nat := s.connAddr ((s.circuit c).entries.getD (p - 1) 0)
  match s.sweep.job with
  | .none => none
  | .capture c p => some (addrAt c p, none)
  | .closeSweep _ c p _ => some (addrAt c p, none)
  | .driftSweep c p => some (addrAt c p, none)
  | .restore c p _ => some (addrAt c p, some (((s.circuit c).baseline.getD []).getD (p - 1) 0))

/-- R120: the engine requests an access that is ready, or holds the request while the posted-write buffer holds a
write to its address. DEDUCED from R40 (log entry 9): it also holds it while an access of a stopped sweep is still
outstanding. -/
def State.requestOrHold (s : State) (addr : Nat) (data : Option Word) : State :=
  if s.bufferHolds addr || s.sweepOutstanding then
    { s with sweep := { s.sweep with held := some (addr, data) } }
  else
    { s with
      sweep := { s.sweep with held := none }
      arbiter := { s.arbiter with sweep := some { addr, write := data.map (·, 0xF) } } }

/-- R120: the access at the current job's position is ready. -/
def State.requestSweep (s : State) : State :=
  match s.sweepAccess with
  | none => s
  | some (addr, data) => s.requestOrHold addr data

/-- R120: a held request is made, if it can be made now: the access is the one that became ready, whatever has
become of the circuit's entries since. -/
def State.releaseHeldSweep (s : State) : State :=
  match s.sweep.held with
  | none => s
  | some (addr, data) => s.requestOrHold addr data

/-- The current job becomes `j` and the engine requests the access at its position. -/
def State.runJob (s : State) (j : Job) : State := ({ s with sweep := { s.sweep with job := j } }).requestSweep

/-- The current job becomes NONE. -/
def State.endJob (s : State) : State := { s with sweep := { s.sweep with job := .none, held := none } }

/-! ### The journal's drift-sweep demand (R55, R56) -/

/-- R55: the drift-sweep demand becomes `d`. -/
def State.setDemand (s : State) (d : Demand) : State := { s with journal := { s.journal with demand := d } }

/-- R56: the journal OVERRUN flag clears; a change makes the summary wanted. -/
def State.clearOverrun (s : State) : State :=
  ({ s with journal := { s.journal with overrun := none } }).wantSummaryIf s.journal.overrun.isSome

/-- R55: the conditions under which an owed drift sweep is requested. -/
def State.driftDue (s : State) : Bool :=
  decide (s.journal.demand = .owed ∧ s.window.state = .quiet ∧ s.journal.occupancy < Config.journalHalf)

/-- R55, R119: the drift sweep request becomes yes if an owed drift sweep is due. -/
def State.markDriftDue (s : State) : State :=
  if s.driftDue then { s with sweep := { s.sweep with driftRequest := true } } else s

/-- R127, R55, R56: the journal is told that a drift sweep has ended. -/
def State.driftSweepEnded (s : State) : State :=
  match s.journal.demand with
  | .running => (s.setDemand .none).clearOverrun
  | .runningAndOwed => (s.setDemand .owed).markDriftDue
  | .none | .owed => s

/-! ### Starting jobs (R119) -/

/-- R126: the first SETTLED circuit numbered `c` or above. -/
def State.nextSettled (s : State) (c : Nat) : Option Nat :=
  (s.circuitsWhere fun r => r.state = .settled).find? fun k => decide (c ≤ k)

/-- R130: a RESTORE job starts with the head of the restore list. -/
def State.startRestore (s : State) : State :=
  match s.sweep.restoreList with
  | [] => s
  | c :: rest =>
    let earlier := ((s.circuit c).state.outside).getD .drifted
    let listed := ({ s with sweep := { s.sweep with restoreList := rest } }).wantSummary
    (listed.setCircuitState c .restoring).runJob (.restore c 1 earlier)

/-- R126, R127, R55: a DRIFT_SWEEP job starts: its request clears and the demand OWED becomes RUNNING. With no
SETTLED circuit it passes circuit 511, and so ends, in the event it starts; the next waiting job, which can
only be a restore, then starts. -/
def State.startDriftSweep (s : State) : State :=
  let begun := { s with sweep := { s.sweep with driftRequest := false } }
  let running := if begun.journal.demand = .owed then begun.setDemand .running else begun
  match running.nextSettled 0 with
  | some c => running.runJob (.driftSweep c 1)
  | none => running.driftSweepEnded.startRestore

/-- R119: when no job runs, the first waiting job starts, in the order CAPTURE, DRIFT_SWEEP, RESTORE. -/
def State.startNextJob (s : State) : State :=
  if s.sweep.job ≠ .none then s
  else
    match s.sweep.captureRequest with
    | some c => ({ s with sweep := { s.sweep with captureRequest := none } }).runJob (.capture c 1)
    | none => if s.sweep.driftRequest then s.startDriftSweep else s.startRestore

/-- R55, R119: an owed drift sweep that has become due is requested, and a waiting job starts if none
runs. -/
def State.requestDriftSweep (s : State) : State := if s.driftDue then s.markDriftDue.startNextJob else s

end Sys2Proof.Machine
end

