-- ==== Sys2Proof/Machine/DirectiveOps.lean ====
section
/-!
DEFINITION. The Directive Unit's own work: taking ready marks and fetching slots (R152, R153, R154), the
checks of a complete chain (R155), and writing outcomes (R157, R158, R159).
-/

namespace Sys2Proof.Machine

/-- The Directive Unit's step becomes `st`. -/
def State.setDirectiveStep (s : State) (st : DirectiveStep) : State :=
  { s with directive := { s.directive with step := st } }

/-- The slot that follows the last slot of the chain in hand; with no chain, the next slot (R151). -/
def DirectiveUnit.fetchSlot (d : DirectiveUnit) : Nat := (d.nextSlot + d.chain.length) % Config.ringSlots

/-- R37, R152: the mark of slot `n` joins the ready set. -/
def State.addReady (s : State) (n : Nat) : State :=
  { s with directive := { s.directive with ready := Table.set false s.directive.ready n true } }

/-- R152, R153, R154: in IDLE or CHAIN_WAIT, if the mark of the slot waited for is in the ready set, the unit
enters FETCHING, requests the read of the slot's word 0, and the mark leaves the set. -/
def State.seekSlot (s : State) : State :=
  let d := s.directive
  if (d.step = .idle ∨ d.step = .chainWait) ∧ Table.get false d.ready d.fetchSlot then
    ({ s with directive := { d with
        ready := Table.set false d.ready d.fetchSlot false
        step := .fetching [] } }).requestDirective (s.slotAddr d.fetchSlot 0) none
  else s

/-- R157: the words the completion writes, continuation slots first in chain order, first slot last. -/
def DirectiveUnit.completionWords (d : DirectiveUnit) (a : DirectiveAnswer) : List (Nat × Word) :=
  let continued := (List.range (d.chain.length - 1)).map fun k =>
    ((d.nextSlot + k + 1) % Config.ringSlots, answerWord (chainWord d.chain (k + 1) 0) ⟨.continued, 0⟩)
  continued ++ [(d.nextSlot, answerWord (chainWord d.chain 0 0) a)]

/-- R157: the unit enters COMPLETING with these writes left and requests the first. -/
def State.startCompleting (s : State) (left : List (Nat × Word)) (advance : Nat) : State :=
  match left with
  | [] => s
  | (slot, w) :: _ =>
    (s.setDirectiveStep (.completing left advance)).requestDirective (s.slotAddr slot 0) (some w)

/-- R157: the outcome of the directive in hand is decided: a refusal raises REFUSED, and the unit enters
COMPLETING. -/
def State.answerDirective (s : State) (a : DirectiveAnswer) : State :=
  let raised := if a.outcome.isRefusal then s.raise .refused else s
  raised.startCompleting (raised.directive.completionWords a) raised.directive.chain.length

/-- R155: the first check that the complete chain fails. -/
def State.chainRefusal (s : State) : Option DirectiveAnswer :=
  let chain := s.directive.chain
  if continuationMark (chainWord chain 2 0) then some ⟨.malformed, 2⟩
  else
    match chainKind chain with
    | none => some ⟨.malformed, 1⟩
    | some k =>
      if chain.length < slotsNeeded k chain then some ⟨.malformed, 3⟩
      else if s.layout = none ∧ k ≠ .layout then some ⟨.noLayout, 0⟩
      else none

/-- R155: the complete chain is checked: it is answered with the failed check's outcome, or its execution is
next. -/
def State.checkChain (s : State) : State :=
  match s.chainRefusal with
  | some a => s.answerDirective a
  | none => s.setDirectiveStep .checked

/-- R153, R154: a slot's eight words join the chain; the unit takes a continuation, or the chain is complete
(at the third slot whatever its continuation mark). -/
def State.joinChain (s : State) (slot : List Word) : State :=
  let chain := s.directive.chain ++ [slot]
  let joined := { s with directive := { s.directive with chain } }
  if continuationMark (slot.getD 0 0) ∧ chain.length < 3 then
    (joined.setDirectiveStep .chainWait).seekSlot
  else joined.checkChain

/-- R153, R154: a fetch read completes: a word 0 with the ready mark clear is stale and discarded; otherwise
the word is kept, and the next word is read or the slot joins the chain. -/
def State.takeFetchedWord (s : State) (words : List Word) (data : Word) : State :=
  if words = [] ∧ readyMark data = false then
    (s.setDirectiveStep (if s.directive.chain = [] then .idle else .chainWait)).seekSlot
  else
    let read := words ++ [data]
    if read.length < 8 then
      (s.setDirectiveStep (.fetching read)).requestDirective
        (s.slotAddr s.directive.fetchSlot read.length) none
    else s.joinChain read

/-- R158: a fetch read failed twice: the first slot alone is answered FETCH_FAULT with the word number, and
the unit will advance by one slot. -/
def State.faultFetch (s : State) (words : List Word) : State :=
  let first := if s.directive.chain = [] then words.getD 0 0 else chainWord s.directive.chain 0 0
  let stopped := { s with directive := { s.directive with chain := [] } }
  stopped.startCompleting [(s.directive.nextSlot, answerWord first ⟨.fetchFault, words.length⟩)] 1

/-- R157, R159: a completion write has ended: the next is requested, or the unit advances and seeks the next
slot. -/
def State.endCompletionWrite (s : State) (left : List (Nat × Word)) (advance : Nat) : State :=
  match left.tail with
  | [] =>
    ({ s with directive := { s.directive with
        nextSlot := (s.directive.nextSlot + advance) % Config.ringSlots
        step := .idle
        chain := [] } }).seekSlot
  | rest => s.startCompleting rest advance

end Sys2Proof.Machine
end

