-- ==== Sys2Proof/Machine/VerdictOps.lean ====
section
/-!
DEFINITION. Power arithmetic and judgement (R85 to R94), evaluation (R138, R139), the steady timer (R141),
conclusion (R143), and the entry to VERIFYING (R135, R136, R148).
-/

namespace Sys2Proof.Machine

/-! ### Power (chapter 5) -/

/-- R88: the new smoothed power from the old one, the reading after clamping, and the smoothing shift. -/
def smooth (k : Nat) (old : Option Int) (r : Int) : Int :=
  match old with
  | none => r
  | some s => s + (r - s) / (2 : Int) ^ k

/-- R85, R86, R87: the power step: the reading `r` applied to an evidence record with smoothing shift
`k`. -/
def powerStep (k : Nat) (r : Int) (e : Evidence) : Evidence :=
  if r = -32768 then { e with dark := true, power := none }
  else if r = -32767 then e
  else { e with dark := false, power := some (smooth k e.power (clampInt (-5000) 1000 r)) }

/-- R94: the power judgement from smoothed power, reference power, tolerance and floor. -/
def judgePower (power reference : Option Int) (tolerance : Nat) (floor : Int) : VerdictCause :=
  match power, reference with
  | some s, some p =>
    if s < floor then .powerLow
    else if s - p < -(tolerance : Int) then .powerLow
    else if s - p > (tolerance : Int) then .powerHigh
    else .matched
  | _, _ => .matched

/-! ### Tags (R71 to R74) -/

/-- R71, R72, R73: the candidate, run count and gap flag after an arrival's tag step. -/
def countTag (a : Arrival) (e : Evidence) : Evidence :=
  match a.tagState with
  | .noFrame => { e with candidate := none, run := 0 }
  | .valid =>
    if e.gap then { e with candidate := some a.tag, run := 1, gap := false }
    else if e.candidate = some a.tag then { e with run := min Config.runMax (e.run + 1) }
    else { e with candidate := some a.tag, run := 1 }

/-- R74: after a VALID arrival a run that has reached the persistence makes the candidate the accepted
tag. -/
def acceptTag (persistence : Nat) (a : Arrival) (e : Evidence) : Evidence :=
  if a.tagState = .valid ∧ persistence ≤ e.run then { e with accepted := e.candidate } else e

/-- The tag step of a consumption (R71 to R74). -/
def tagStep (persistence : Nat) (a : Arrival) (e : Evidence) : Evidence :=
  acceptTag persistence a (countTag a e)

/-! ### Evaluation (R138, R139, R141) -/

/-- R138: the new verdict of a window circuit from its record and its channel's evidence. -/
def newVerdict (r : Circuit) (e : Evidence) : CircuitState × Option VerdictCause :=
  if r.isUnreadable then (r.state, r.cause)
  else if e.dark then (.silent, some .dark)
  else if e.silence = .expired then (.silent, some .noArrivals)
  else
    match e.accepted with
    | none => (.pending, none)
    | some t =>
      if t = zeroTag then (.silent, some .unequipped)
      else if t ≠ r.tag then (.broken, some .tagMismatch)
      else
        match judgePower e.power r.reference r.tolerance r.floor with
        | .matched => (.confirmed, some .matched)
        | low => (.degraded, some low)

/-- R133: a timer of the Verdict Unit started with a length in seconds. -/
def VerdictTimer.start (seconds : Nat) : VerdictTimer := { running := true, remaining := 1000 * seconds }

/-- R133: a timer of the Verdict Unit stops and keeps its remaining time. -/
def VerdictTimer.stop (t : VerdictTimer) : VerdictTimer := { t with running := false }

/-- R141: the steady timer after a verdict change: started afresh with no circuit PENDING, else stopped. -/
def State.actSteady (s : State) : State :=
  let t := if s.count .pending = 0 then VerdictTimer.start s.window.steadyTime else s.verdict.steady.stop
  { s with verdict := { s.verdict with steady := t } }

/-- R139, R144: circuit `c` takes a new verdict, which is counted, and its CIRCUIT report is owed. -/
def State.changeVerdict (s : State) (c : Nat) (st : CircuitState) (cause : Option VerdictCause) : State :=
  ((s.mapCircuit c fun r => { r with cause, verdictChanges := bump r.verdictChanges }).setCircuitState c
    st).oweCircuit c

/-- R138, R139: the evaluation of circuit `c` against the evidence of channel `ch`. -/
def State.evaluate (s : State) (c ch : Nat) : State :=
  let r := s.circuit c
  let v := newVerdict r (s.evidenceOf ch)
  if v = (r.state, r.cause) then s else (s.changeVerdict c v.1 v.2).actSteady

/-- R82: the Verdict Unit evaluates the circuit handed over only when it is a window circuit and the window
is VERIFYING. -/
def State.evaluateHandedOver (s : State) (c ch : Nat) : State :=
  if (s.circuit c).state.inWindow ∧ s.window.state = .verifying then s.evaluate c ch else s

/-! ### Conclusion (R143) -/

/-- R79: every silence timer that is RUNNING or EXPIRED becomes STOPPED. -/
def State.stopSilence (s : State) : State :=
  s.forEach (s.trace.evidence.map Prod.fst) fun s ch => s.setSilence ch .stopped

/-- R113, R143: the verify-limit and steady timers stop, keeping their remaining times. -/
def State.stopVerdictTimers (s : State) : State :=
  { s with verdict := { limit := s.verdict.limit.stop, steady := s.verdict.steady.stop } }

/-- R143: the window concludes. -/
def State.conclude (s : State) : State :=
  (s.stopVerdictTimers.stopSilence.setWindowState .concluded).raise .concluded

/-! ### Entry to VERIFYING (R135, R136, R148) -/

/-- R135, R148: circuit `c` becomes PENDING with its cause absent, and its channel gets an evidence reset; a
change of the cause alone also makes a CIRCUIT report owed. -/
def State.pendAfresh (s : State) (c : Nat) : State :=
  let r := s.circuit c
  let dropped := s.putCircuit c { r with cause := none }
  let told := if r.cause.isSome then dropped.oweCircuit c else dropped
  (told.setCircuitState c .pending).forSome r.channel State.resetEvidence

/-- R135, R148: the silence timer of window circuit `c`'s channel is started and its verdict changes become
0. -/
def State.startVerification (s : State) (c : Nat) : State :=
  (s.mapCircuit c fun r => { r with verdictChanges := 0 }).forSome (s.circuit c).channel fun s ch =>
    s.setSilence ch (.running s.trace.silenceLimit)

/-- R136: at the end of an entry to VERIFYING. -/
def State.settleEntry (s : State) : State :=
  if s.windowCircuits = [] then s.conclude
  else if s.count .pending = 0 then
    { s with verdict := { s.verdict with steady := VerdictTimer.start s.window.steadyTime } }
  else s

/-- R135, R148: an entry to VERIFYING, sending the window circuits that satisfy `chosen` back to PENDING. -/
def State.enterVerifying (s : State) (chosen : Circuit → Bool) : State :=
  let pended := s.forEach (s.circuitsWhere fun r => r.state.inWindow && chosen r) State.pendAfresh
  let started := pended.forEach pended.windowCircuits State.startVerification
  let timed := { started with verdict := {
    limit := VerdictTimer.start started.window.verifyLimit
    steady := started.verdict.steady.stop } }
  (timed.setWindowState .verifying).settleEntry

end Sys2Proof.Machine
end

