-- ==== Sys2Proof/Machine/WindowOps.lean ====
section
/-!
DEFINITION. The window's moves that several commands share (the close, R108; the entry to SWEEPING, R111; the
end of a window, R116), and the Sweep Engine's work at a read's or write's end (R121 to R131).
-/

namespace Sys2Proof.Machine

/-! ### The close sweep (R122 to R125) -/

/-- R125, R112, R135: the close sweep ends and the window enters VERIFYING. -/
def State.endCloseSweep (s : State) : State := s.endJob.enterVerifying fun r => !r.isUnreadable

/-- R122: the close sweep goes on with the first circuit of its set numbered `from` or above, or ends. -/
def State.sweepOn (s : State) (set : List Nat) (low : Nat) : State :=
  match set.find? fun c => decide (low ≤ c) with
  | some c => s.runJob (.closeSweep set c 1 [])
  | none => s.endCloseSweep

/-- R122: the sweep result of the words read, compared whole with the baseline words. -/
def sweepResultOf (baseline : Option (List Word)) (words : List Word) : SweepResult :=
  match baseline with
  | none => .new
  | some b => if b = words then .unchanged else .changed

/-- R122, R124: every entry of circuit `c` has been read. A window circuit takes the words and the result; a
circuit outside the window joins it if it is CHANGED. -/
def State.recordSwept (s : State) (c : Nat) (words : List Word) : State :=
  let r := s.circuit c
  let result := sweepResultOf r.baseline words
  if r.state.inWindow then
    (s.putCircuit c { r with swept := some words, sweepResult := some result }).oweCircuit c
  else if result = .changed then
    (s.putCircuit c { r with
      prior := r.state.outside, swept := some words, sweepResult := some .changed,
      undeclared := true }).setCircuitState c .pending
  else s

/-- R123, R124: a read of circuit `c` has failed twice. -/
def State.recordUnreadable (s : State) (c : Nat) : State :=
  let r := s.circuit c
  if r.state.inWindow then
    ((s.putCircuit c { r with
      sweepResult := some .unreadable, cause := some .unreadable }).oweCircuit c).setCircuitState c .broken
  else if r.state = .settled then (s.setCircuitState c .drifted).raise .drift
  else s

/-! ### The window (chapter 6) -/

/-- R111: the window enters SWEEPING: the settle timer stops (R109), and the close sweep's set is fixed and
given to the Sweep Engine. -/
def State.enterSweeping (s : State) : State :=
  let set := if s.window.overrun then s.loadedCircuits else s.windowCircuits
  let stopped := { s with window := { s.window with settle := .stopped } }
  (stopped.setWindowState .sweeping).sweepOn set 0

/-- R64, R110: the window leaves SETTLING if the settle timer is EXPIRED and the open backlog is 0. -/
def State.leaveSettlingIfDone (s : State) : State :=
  if s.window.state = .settling ∧ s.window.settle = .expired ∧ s.journal.openBacklog = 0 then s.enterSweeping
  else s

/-- R108: the close. -/
def State.closeWindow (s : State) : State :=
  let pended := s.forEach (s.circuitsWhere fun r => r.state = .held) fun s c => s.setCircuitState c .pending
  ({ pended with window := { pended.window with
      deadline := .stopped
      settle := .running (1000 * pended.window.settleTime) } }).setWindowState .settling

/-- R116: the window ends: the work set empties and the window becomes QUIET. -/
def State.endWindow (s : State) : State := s.clearWorkSet.setWindowState .quiet

/-! ### Captures (R121, R21) -/

/-- R21, R121: the capture for circuit `c` has read every entry: the LOAD completes with the circuit SETTLED,
or DRIFTED if the capture is suspect. -/
def State.finishCapture (s : State) (c : Nat) : State :=
  let st := if (s.circuit c).suspect then CircuitState.drifted else .settled
  let judged := ((s.mapCircuit c fun r => { r with suspect := false }).setCircuitState c st).oweCircuit c
  (judged.endJob.answerDirective ⟨.done, 0⟩).startNextJob

/-- R21, R121: a capture read failed twice at entry position `p`: circuit `c` is released and the LOAD
answered FAULT. -/
def State.failCapture (s : State) (c p : Nat) : State :=
  (((s.release c).endJob).answerDirective ⟨.fault, p⟩).startNextJob

/-! ### Drift sweeps (R126, R127) -/

/-- R126, R127: the drift sweep comes to the first SETTLED circuit numbered `low` or above, or ends. -/
def State.driftOn (s : State) (low : Nat) : State :=
  match s.nextSettled low with
  | some c => s.runJob (.driftSweep c 1)
  | none => s.endJob.driftSweepEnded.startNextJob

/-- R126: a circuit that is still SETTLED becomes DRIFTED, and DRIFT is raised. -/
def State.driftSettled (s : State) (c : Nat) : State :=
  if (s.circuit c).state = .settled then (s.setCircuitState c .drifted).raise .drift else s

/-- R126: a drift sweep read of circuit `c` at entry position `p` completes. -/
def State.takeDriftWord (s : State) (c p : Nat) (data : Word) : State :=
  let r := s.circuit c
  if r.state ≠ .settled then s.driftOn (c + 1)
  else if (r.baseline.getD []).getD (p - 1) 0 ≠ data then (s.driftSettled c).driftOn (c + 1)
  else if p < r.entries.length then s.runJob (.driftSweep c (p + 1))
  else s.driftOn (c + 1)

/-! ### Restores (R131) -/

/-- R131: a restore ends with circuit `c` in state `st` and this outcome. -/
def State.finishRestore (s : State) (c : Nat) (st : CircuitState) (outcome : RestoreOutcome)
    (cause : Option VerdictCause) : State :=
  let told := s.mapCircuit c fun r => { r with restoreOutcome := some outcome, cause }
  (((told.setCircuitState c st).oweCircuit c).raise .restoreDone).endJob.startNextJob

end Sys2Proof.Machine
end

