-- ==== Sys2Proof/Machine/JournalOps.lean ====
section
/-!
DEFINITION. The Change Journal: storing and losing captures (R48, R52), releasing records (R50), and the
classifier (R57 to R62).
-/

namespace Sys2Proof.Machine

/-! ### Captures (R32, R48, R52) -/

/-- R32: the phase of a capture from the window state at acceptance. -/
def WindowState.phase : WindowState → Phase
  | .opened => .opened
  | .settling | .sweeping | .verifying | .concluded => .closed
  | .quiet | .noLayout => .outside

/-- R55: the demand after a loss taken with this window state. -/
def Demand.afterLoss (d : Demand) (w : WindowState) : Demand :=
  match d with
  | .running | .runningAndOwed => .runningAndOwed
  | .owed => .owed
  | .none => if w = .opened ∨ w = .settling then .none else .owed

/-- R48, R51: the record is placed at the capture point with the next sequence number; reaching 192 records
raises JOURNAL_HALF. -/
def State.storeRecord (s : State) (record : ChangeRecord) : State :=
  let j := s.journal
  let stored := ({ s with journal := { j with
    waiting := j.waiting ++ [{ record with seq := j.nextSeq }], nextSeq := j.nextSeq + 1 } }).wantSummary
  if stored.journal.occupancy = Config.journalHalf then stored.raise .journalHalf else stored

/-- R52: a capture is lost: the journal OVERRUN flag is set with its phase and JOURNAL_OVERRUN raised if the
flag was clear, the window flag OVERRUN is set in OPEN to CONCLUDED, and the drift-sweep demand follows. -/
def State.loseCapture (s : State) (phase : Phase) : State :=
  let flagged :=
    if s.journal.overrun.isSome then s
    else (({ s with journal := { s.journal with overrun := some phase } }).wantSummary).raise .journalOverrun
  let told := if phase = .outside then flagged else flagged.setWindowFlags true flagged.window.overtime
  (told.setDemand (told.journal.demand.afterLoss told.window.state)).requestDriftSweep

/-- R32, R48, R52: the Pass Path hands a capture to the journal. -/
def State.capture (s : State) (index : Nat) (data : Word) (lanes : Lanes) (master : Master) (fenced : Bool) :
    State :=
  let phase := s.window.state.phase
  if s.journal.occupancy < Config.journalRoom then
    s.storeRecord { seq := 0, index, value := maskLanes data lanes, lanes, master, phase, fenced }
  else s.loseCapture phase

/-- R50, R55: the record at the report position is released; an owed drift sweep may become due. -/
def State.releaseRecord (s : State) : State :=
  (({ s with journal := { s.journal with judged := s.journal.judged.tail } }).wantSummary).requestDriftSweep

/-! ### The classifier (R58) -/

/-- R58: a record of phase OPEN classified with the window OPEN or SETTLING. -/
def duringWindow (phase : Phase) (w : WindowState) : Bool :=
  decide (phase = .opened ∧ (w = .opened ∨ w = .settling))

/-- R58: the classification of a record with its owner's state and undeclared flag, rows 1 to 10. -/
def classification (r : ChangeRecord) (owner : Option Circuit) (w : WindowState) : Classification :=
  if r.fenced then .fenced
  else
    match owner with
    | none => .stray
    | some c =>
      if duringWindow r.phase w then
        match c.state with
        | .held | .pending => if c.undeclared then .undeclared else .declared
        | .settled | .drifted | .faulted => .undeclared
        | .empty | .loading | .restoring | .confirmed | .degraded | .broken | .silent => .drift
      else .drift

/-- R59: the effect of a FENCED record. -/
def State.judgeFenced (s : State) (owner : Option Nat) : State :=
  (s.forSome owner fun s c =>
    (s.mapCircuit c fun r => { r with fenceHits := bump r.fenceHits }).oweCircuit c).raise .fenceHit

/-- R62: row 7 brings the owner into the window. -/
def State.joinUndeclared (s : State) (c : Nat) : State :=
  let joined := s.mapCircuit c fun r =>
    { r with prior := r.state.outside, undeclared := true, redeclared := false, changeCount := 1 }
  joined.setCircuitState c (if s.window.state = .opened then .held else .pending)

/-- R60: the effect of a DRIFT record on its owner, rows 3, 4 and 8 to 10. -/
def State.judgeDrift (s : State) (c : Nat) : State :=
  let r := s.circuit c
  match r.state with
  | .loading => s.putCircuit c { r with suspect := true }
  | .settled | .faulted => (s.setCircuitState c .drifted).raise .drift
  | .held | .pending | .confirmed | .degraded | .broken | .silent =>
    if r.prior = some .settled ∨ r.prior = some .faulted then
      (s.putCircuit c { r with prior := some .drifted }).raise .drift
    else s
  | .empty | .restoring | .drifted => s

/-- R59 to R62: the effect of a record's classification on its owner. -/
def State.judgeOwner (s : State) (k : Classification) (owner : Option Nat) : State :=
  match k with
  | .fenced => s.judgeFenced owner
  | .stray => s
  | .declared => s.forSome owner State.bumpChanges
  | .undeclared =>
    s.forSome owner fun s c =>
      if (s.circuit c).state.inWindow then s.bumpChanges c else s.joinUndeclared c
  | .drift => s.forSome owner State.judgeDrift

/-- R57, R64: the classifier takes the record at the classify position, classifies it and moves the position
past it; a record that empties the open backlog may end SETTLING. -/
def State.classifyNext (s : State) : State :=
  match s.journal.waiting with
  | [] => s
  | r :: rest =>
    let owner := (s.mapEntry r.index).owner
    let k := classification r (owner.map s.circuit) s.window.state
    let judged := s.judgeOwner k owner
    let moved := { judged with journal := { judged.journal with
      judged := judged.journal.judged ++ [⟨r, k, owner⟩], waiting := rest } }
    if r.phase = .opened then moved.leaveSettlingIfDone else moved

end Sys2Proof.Machine
end

