-- ==== Sys2Proof/Machine/PassOps.lean ====
section
/-!
DEFINITION. The Pass Path's shared work: presenting an access (R29, R31, R44), accepting a write by its class
(R32 to R38), the emptying of the posted-write buffer (R30), and failures downstream (R42 to R45).
-/

namespace Sys2Proof.Machine

/-! ### Answers to masters -/

/-- The access presented is completed to its master with this answer, and the upstream step is IDLE. -/
def State.answerMaster (s : State) (m : Master) (r : Response) : State :=
  { s with pass := { s.pass with step := .idle, answer := some ⟨m, r⟩ } }

/-- The upstream step becomes `st`. -/
def State.setUpStep (s : State) (st : UpStep) : State := { s with pass := { s.pass with step := st } }

/-- R44: master `m`'s late-error mark is set. -/
def State.isLate (s : State) (m : Master) : Bool := Table.get false s.pass.lateMarks m.toNat

/-- R43, R44: master `m`'s late-error mark is set or cleared. -/
def State.setLate (s : State) (m : Master) (late : Bool) : State :=
  { s with pass := { s.pass with lateMarks := Table.set false s.pass.lateMarks m.toNat late } }

/-- R44: master `m`'s access is ended with the error response without being taken, and its mark clears. -/
def State.endLate (s : State) (m : Master) : State := (s.setLate m false).answerMaster m .error

/-! ### Accepting a write (R29) -/

/-- R29: the write is placed in the posted-write buffer and acknowledged. -/
def State.postWrite (s : State) (a : Access) (data : Word) (lanes : Lanes) : State :=
  let p : Posted := { addr := a.addr, data, lanes, master := a.master, cls := a.cls }
  ({ s with pass := { s.pass with buffer := some p } }).answerMaster a.master .acknowledge

/-- R32: a connection write is accepted. -/
def State.acceptConnection (s : State) (a : Access) (index : Nat) (data : Word) (lanes : Lanes) : State :=
  if (s.mapEntry index).fenced then
    (s.answerMaster a.master .acknowledge).capture index data lanes a.master true
  else (s.postWrite a data lanes).capture index data lanes a.master false

/-- R34: the tag assembly of channel `ch` after a write to word `w` of its slot. -/
def State.assembleLanding (s : State) (ch w : Nat) (data : Word) (lanes : Lanes) : State :=
  let old := Table.get zeroTag s.pass.assembly ch
  { s with pass := { s.pass with
      assembly := Table.set zeroTag s.pass.assembly ch (assembleTag s.straps.bord w data lanes old) } }

/-- R35, R66: an arrival is pushed onto the tail of the arrival queue. -/
def State.pushArrival (s : State) (ch : Nat) (data : Word) : State :=
  let a : Arrival := { channel := ch, tag := Table.get zeroTag s.pass.assembly ch,
                       tagState := closingTagState data, power := closingPower data }
  ({ s with trace := { s.trace with arrivals := s.trace.arrivals ++ [a] } }).wantSummary

/-- R35: a closing word meets the arrival queue: with room its arrival is pushed and it is accepted, and with
the queue full it enters HOLD. -/
def State.acceptClosing (s : State) (a : Access) (ch : Nat) (data : Word) (lanes : Lanes) : State :=
  if s.trace.arrivals.length < Config.arrivalRoom then (s.pushArrival ch data).postWrite a data lanes
  else s.setUpStep (.hold a 0)

/-- R164: the Report Unit takes or rejects a consumer index; a record that a LAYOUT has overtaken counts as one in
progress (DEDUCED, log entry 13). -/
def State.takeConsumer (s : State) (v : BitVec 16) : State :=
  let r := s.report
  let busy := match r.writer with
    | .writing _ _ _ _ => 1
    | .idle | .holdOff _ => 0
  let figure := (r.producer - v).toNat + busy
  let size := s.layout.elim 0 Layout.reportSize
  if figure ≤ size then
    ({ s with report := { r with consumer := v, rejected := false } }).wantSummaryIf
      (decide (r.consumer ≠ v) || r.rejected)
  else ({ s with report := { r with rejected := true } }).wantSummaryIf (!r.rejected)

/-- R29: a write is accepted, with the hand-off its class calls for (R32, R34, R35, R38). The class is the one it
was given when presented, also where a LAYOUT came between (R28; DEDUCED, log entry 21). -/
def State.acceptWrite (s : State) (a : Access) (data : Word) (lanes : Lanes) : State :=
  match a.cls with
  | .connection i => s.acceptConnection a i data lanes
  | .landing ch w =>
    if s.isFramer a.master = false then s.postWrite a data lanes
    else if w < 3 then (s.assembleLanding ch w data lanes).postWrite a data lanes
    else if lanes = 0xF then s.acceptClosing a ch data lanes
    else s.postWrite a data lanes
  | .consumerWord =>
    if lanes.getLsbD 0 ∧ lanes.getLsbD 1 then (s.takeConsumer (data.setWidth 16)).postWrite a data lanes
    else s.postWrite a data lanes
  | .directive _ _ | .attentionWord | .other => s.postWrite a data lanes

/-- R29, R31: with the posted-write buffer empty, a write is accepted and a read goes downstream. -/
def State.takeAccess (s : State) (a : Access) : State :=
  match a.op with
  | .read => s.setUpStep (.readOut a)
  | .write data lanes => s.acceptWrite a data lanes

/-- R29, R31, R44: a master presents an access. A master whose late-error mark is set is answered with the
error response at once; otherwise the access is classed (R27), and is taken at once or waits in DRAIN_WAIT for
the buffer to empty. The upstream group presents one access at a time, so while one is presented no other
is (DEDUCED, log entry 6). -/
def State.present (s : State) (addr : WordAddr) (op : AccessOp) (m : Master) : State :=
  if s.pass.step ≠ .idle then s
  else
    let shown := { s with pass := { s.pass with answer := none } }
    if s.isLate m then shown.endLate m
    else
      let octet := 4 * addr.toNat
      let a : Access := { addr := octet, op, master := m, cls := s.addrClass octet }
      if s.pass.buffer.isSome then shown.setUpStep (.drainWait a) else shown.takeAccess a

/-! ### The posted-write buffer empties (R30) -/

/-- R30, R44: the access waiting in DRAIN_WAIT is taken, or is ended with the error response if its master's
mark is now set. It keeps the class it was presented with over a LAYOUT (R28), and a landing write that waited over
one acts on the new layout's assemblies (DEDUCED, log entry 21). -/
def State.releaseDrain (s : State) : State :=
  match s.pass.step with
  | .drainWait a => if s.isLate a.master then s.endLate a.master else s.takeAccess a
  | .idle | .hold _ _ | .readOut _ => s

/-- R30, R120: the posted-write buffer empties: a held request of the Sweep Engine is made, and the access
waiting in DRAIN_WAIT is taken, in that order (DEDUCED, log entry 11). -/
def State.emptyBuffer (s : State) : State :=
  ({ s with pass := { s.pass with buffer := none } }).releaseHeldSweep.releaseDrain

/-- R37: a completed write to word 0 of a directive slot whose lanes carry the ready mark set adds the slot to
the ready set. -/
def State.noteReady (s : State) (p : Posted) : State :=
  match p.cls with
  | .directive slot 0 =>
    if p.lanes.getLsbD 1 ∧ readyMark p.data then s.addReady slot else s
  | _ => s

/-! ### The downstream port -/

/-- The port becomes free. -/
def State.freePort (s : State) : State := { s with arbiter := { s.arbiter with port := none } }

/-- The access in progress, if it is this requester's. -/
def State.portOf (s : State) (who : Requester) : Option Request :=
  match s.arbiter.port with
  | some g => if g.who = who then some g.request else none
  | none => none

/-- R43: a forwarded write has failed. -/
def State.failForwardedWrite (s : State) (p : Posted) : State :=
  (((s.writeFault p.addr .write p.master).raise .busFault).setLate p.master true).emptyBuffer

/-- R43: a forwarded read has failed. -/
def State.failForwardedRead (s : State) (a : Access) : State :=
  ((s.writeFault a.addr .read a.master).raise .busFault).answerMaster a.master .error

/-- R43: the forwarded access in progress has failed. -/
def State.failForwarded (s : State) : State :=
  match s.pass.buffer, s.pass.step with
  | some p, _ => s.failForwardedWrite p
  | none, .readOut a => s.failForwardedRead a
  | none, _ => s

/-- R45: a first failure: the same request is made again. -/
def State.retry (s : State) (who : Requester) (r : Request) : State :=
  let again := some { r with retry := true }
  match who with
  | .passPath => s
  | .directive => { s with arbiter := { s.arbiter with directive := again } }
  | .sweep => { s with arbiter := { s.arbiter with sweep := again } }
  | .report => { s with arbiter := { s.arbiter with report := again } }

/-- R158, R159: a Directive Unit access has failed twice. -/
def State.failDirective (s : State) : State :=
  match s.directive.step with
  | .fetching words => s.faultFetch words
  | .completing left advance => s.endCompletionWrite left advance
  | .idle | .chainWait | .checked | .held => s

/-- R121, R122, R126, R131: a Sweep Engine access has failed twice. -/
def State.failSweep (s : State) : State :=
  match s.sweep.job with
  | .none => s
  | .capture c p => s.failCapture c p
  | .closeSweep set c _ _ => (s.recordUnreadable c).sweepOn set (c + 1)
  | .driftSweep c _ => (s.driftSettled c).driftOn (c + 1)
  | .restore c p earlier => s.finishRestore c earlier.toState (.failed p) (s.circuit c).cause

/-- R166: a report kept owed: its mark is set again, and a CIRCUIT report's fence hits are added back. -/
def State.owesAgain (s : State) (item : RecordItem) : State :=
  match item with
  | .window => s.oweWindow
  | .circuit c hits =>
    (s.mapCircuit c fun r => { r with fenceHits := min Config.countMax (r.fenceHits + hits) }).oweCircuit c
  | .change => s

/-- R166: the report writer becomes `w`. -/
def State.setWriter (s : State) (w : ReportWriter) : State := { s with report := { s.report with writer := w } }

/-- R168: the summary writer becomes `w`. -/
def State.setSummary (s : State) (w : SummaryWriter) : State :=
  { s with report := { s.report with summary := w } }

/-- R166, R168: a Report Unit access has failed twice. -/
def State.failReport (s : State) : State :=
  match s.report.writer, s.report.summary with
  | .writing item _ _ overtaken, _ =>
    (if overtaken then s else s.owesAgain item).setWriter (.holdOff 1)
  | _, .writing _ _ _ => (s.setSummary (.holdOff 1)).wantSummary
  | _, _ => s

/-- R46: the kind of the fault record an internal requester's second failure writes. -/
def Requester.faultKind : Requester → FaultKind
  | .passPath => .none | .directive => .directive | .sweep => .sweep | .report => .report

/-- R45: an internal access has failed twice: the fault record is written, BUS_FAULT raised, and its requester
told. A stopped sweep's read is discarded (R125; DEDUCED, log entry 10). -/
def State.failInternal (s : State) (who : Requester) (r : Request) : State :=
  let told := (s.writeFault r.addr who.faultKind 0).raise .busFault
  if r.stale then told.releaseHeldSweep
  else
    match who with
    | .passPath => told
    | .directive => told.failDirective
    | .sweep => told.failSweep
    | .report => told.failReport

/-- R42: the access in progress fails and the port is freed. -/
def State.failAccess (s : State) : State :=
  match s.arbiter.port with
  | none => s
  | some g =>
    let freed := s.freePort
    match g.who with
    | .passPath => freed.failForwarded
    | .directive | .sweep | .report =>
      if g.request.retry then freed.failInternal g.who g.request else freed.retry g.who g.request

end Sys2Proof.Machine
end

