-- ==== Sys2Proof/Machine/ReportOps.lean ====
section
/-!
DEFINITION. The Report Unit's writers: the choice and start of a report record (R165, R166), the start of a
summary rewrite (R168), and their word completions.
-/

namespace Sys2Proof.Machine

/-- R164: the report ring is full. -/
def State.ringFull (s : State) : Bool :=
  decide ((s.report.producer - s.report.consumer).toNat = s.layout.elim 0 Layout.reportSize)

/-- R165, R168: the report writer is in WRITING. -/
def ReportWriter.isWriting : ReportWriter → Bool
  | .writing _ _ _ _ => true
  | .idle | .holdOff _ => false

/-- R165, R168: the summary writer is in WRITING. -/
def SummaryWriter.isWriting : SummaryWriter → Bool
  | .writing _ _ _ => true
  | .idle | .holdOff _ => false

/-- R168: the conditions under which a summary rewrite starts. -/
def State.summaryDue (s : State) : Bool :=
  decide (s.report.summary = .idle) && s.report.wanted && s.layout.isSome && !s.report.writer.isWriting

/-- R165: the first circuit with a CIRCUIT report owed, searching upward from the last one reported and
wrapping after 511. -/
def State.nextOwedCircuit (s : State) : Option Nat :=
  ((List.range Config.circuits).map fun k => (s.report.lastReported + 1 + k) % Config.circuits).find?
    fun c => Table.get false s.report.owed c

/-- R165: the conditions under which the report writer chooses. -/
def State.reportMayStart (s : State) : Bool :=
  decide (s.report.writer = .idle) && !s.ringFull && s.layout.isSome && !s.report.summary.isWriting
    && !s.summaryDue

/-- R166: a record's write begins with these contents, word 0 being requested. -/
def State.startRecord (s : State) (item : RecordItem) (words : List Word) : State :=
  let size := s.layout.elim 1 Layout.reportSize
  let base := s.layout.elim 0 Layout.reportBase + 16 * (s.report.producer.toNat % size)
  (s.setWriter (.writing item base ((List.range words.length).zip words) false)).requestReport base
    (words.getD 0 0)

/-- R166: the WINDOW report is started: its owed mark is cleared. -/
def State.startWindowReport (s : State) : State :=
  let words := s.windowRecord
  ({ s with report := { s.report with windowOwed := false } }).startRecord .window words

/-- R166: the CIRCUIT report of circuit `c` is started: its owed mark and its fence hits are cleared. -/
def State.startCircuitReport (s : State) (c : Nat) : State :=
  let words := s.circuitRecord c
  let hits := (s.circuit c).fenceHits
  let taken := { s with report := { s.report with
    owed := Table.set false s.report.owed c false, lastReported := c } }
  (taken.mapCircuit c fun r => { r with fenceHits := 0 }).startRecord (.circuit c hits) words

/-- R165: the report writer chooses the first owed report and starts its record: WINDOW, then the CHANGE report
of the record at the report position if it is classified, then a CIRCUIT report. -/
def State.chooseReport (s : State) : State :=
  if s.report.windowOwed then s.startWindowReport
  else
    match s.journal.judged with
    | j :: _ => s.startRecord .change (s.changeRecord j)
    | [] =>
      match s.nextOwedCircuit with
      | some c => s.startCircuitReport c
      | none => s

/-- R166: a record's last word has completed: the producer index rises and a CHANGE record is released, unless
a LAYOUT overtook the record. -/
def State.finishRecord (s : State) (item : RecordItem) (overtaken : Bool) : State :=
  let idle := s.setWriter .idle
  if overtaken then idle
  else
    let produced :=
      ({ idle with report := { idle.report with producer := idle.report.producer + 1 } }).wantSummary
    match item with
    | .change => produced.releaseRecord
    | .window | .circuit _ _ => produced

/-- R166: a word of the record in flight has completed. -/
def State.endRecordWord (s : State) (item : RecordItem) (base : Nat) (left : List (Nat × Word))
    (overtaken : Bool) : State :=
  match left.tail with
  | [] => s.finishRecord item overtaken
  | (n, w) :: rest =>
    (s.setWriter (.writing item base ((n, w) :: rest) overtaken)).requestReport (base + 4 * n) w

/-- R168: a summary rewrite starts: the generation rises, the snapshot is taken, summary wanted becomes no and
every raised-since-snapshot mark becomes no. -/
def State.startSummary (s : State) : State :=
  let g := s.report.generation + 1
  let base := s.layout.elim 0 Layout.summaryBase
  let words := s.summaryWords g
  ({ s with report := { s.report with
      generation := g, wanted := false, raised := 0,
      summary := .writing base words s.report.pending } }).requestReport base ((words.getD 0 (0, 0)).2)

/-- R168: the end of every event of the part: a summary rewrite starts in the event in which the last of its
conditions comes to hold. -/
def State.endEvent (s : State) : State := if s.summaryDue then s.startSummary else s

/-- R169: the attention word of a rewrite has been written: every cause of the snapshot not raised since has
its unseen mark cleared. -/
def State.seeSnapshot (s : State) (snapshot : BitVec 9) : State :=
  { s with report := { s.report with unseen := s.report.unseen &&& ~~~(snapshot &&& ~~~s.report.raised) } }

/-- R168: a word of the summary rewrite has completed. -/
def State.endSummaryWord (s : State) (base : Nat) (left : List (Nat × Word)) (snapshot : BitVec 9) : State :=
  let seen := if (left.head?.map Prod.fst) = some 2 then s.seeSnapshot snapshot else s
  match left.tail with
  | [] => seen.setSummary (.holdOff 1)
  | (n, w) :: rest =>
    (seen.setSummary (.writing base ((n, w) :: rest) snapshot)).requestReport (base + 4 * n) w

end Sys2Proof.Machine
end

