-- ==== Sys2Proof/Machine/Reset.lean ====
section
/-!
DEFINITION. Reset (R174, R175), and the two ways every other command runs: not at all while the reset lasts,
and as an access presented upstream.
-/

namespace Sys2Proof.Machine

/-- The outcome of a step of a block: its effect, and with it the start of a summary rewrite whose last
condition it brought about (R168). While the reset lasts every item of the part holds its reset value, so no such
step takes place (R175). -/
def live (f : State → State) (s : State) : Host.Outcome State Fault Refusal :=
  .next (if s.inReset then s else (f s).endEvent)

/-- A master presents a write; an empty lane set makes no write (section 2.1). -/
def presentWrite (addr : WordAddr) (data : Word) (lanes : Lanes) (m : Master) (s : State) :
    Host.Outcome State Fault Refusal :=
  if lanes = 0 then .refused .emptyLaneSet else live (fun s => s.present addr (.write data lanes) m) s

/-- R175: every item of the part takes its reset value; the straps keep the values sampled until the next
reset samples them (R174). -/
def State.enterReset (s : State) : State :=
  { State.reset with pending := s.pending, straps := s.straps, inReset := true }

/-- R174, R175: the reset ends: the straps are sampled and the part begins from its reset state. -/
def State.leaveReset (s : State) (dring : BitVec 4) (bord : Bool) : State :=
  { State.reset with pending := s.pending, straps := { dring, bord } }

/-- RESET (R175). -/
def execReset (s : State) : Host.Outcome State Fault Refusal := .next s.enterReset

/-- RESET_END (R175): only a reset that lasts ends (log entry 15). -/
def execResetEnd (dring : BitVec 4) (bord : Bool) (s : State) : Host.Outcome State Fault Refusal :=
  .next (if s.inReset then s.leaveReset dring bord else s)

end Sys2Proof.Machine
end

