-- ==== Sys2Proof/Machine/Clock.lean ====
section
/-!
DEFINITION. The passing of one reference clock period (section 0.6). The table has no row for it, so it is what
step does when no command waits (log entry 5). It counts; the events that counts lead to are commands.
-/

namespace Sys2Proof.Machine

/-- A timer's remaining time falls by one, to 0 at the least. -/
def Timer.fall : Timer → Timer
  | .running ms => .running (ms - 1)
  | .stopped => .stopped
  | .expired => .expired

/-- R133: a RUNNING timer's remaining time falls with the tick; a stopped timer keeps it. -/
def VerdictTimer.fall (t : VerdictTimer) : VerdictTimer :=
  if t.running then { t with remaining := t.remaining - 1 } else t

/-- R166: a HOLD_OFF's time falls. -/
def ReportWriter.fall : ReportWriter → ReportWriter
  | .holdOff ms => .holdOff (ms - 1)
  | .idle => .idle
  | .writing item base left overtaken => .writing item base left overtaken

/-- R168: a HOLD_OFF's time falls. -/
def SummaryWriter.fall : SummaryWriter → SummaryWriter
  | .holdOff ms => .holdOff (ms - 1)
  | .idle => .idle
  | .writing base left snapshot => .writing base left snapshot

/-- The 1 ms tick: every timer set in seconds or milliseconds falls. -/
def State.tick (s : State) : State :=
  { s with
    trace := { s.trace with
      evidence := s.trace.evidence.map fun (ch, e) => (ch, { e with silence := e.silence.fall }) }
    window := { s.window with deadline := s.window.deadline.fall, settle := s.window.settle.fall }
    verdict := { limit := s.verdict.limit.fall, steady := s.verdict.steady.fall }
    report := { s.report with writer := s.report.writer.fall, summary := s.report.summary.fall } }

/-- R36: the hold time counts periods in HOLD, to 500. -/
def UpStep.count : UpStep → UpStep
  | .hold a n => .hold a (min Config.holdPeriods (n + 1))
  | .idle => .idle
  | .drainWait a => .drainWait a
  | .readOut a => .readOut a

/-- R42: the periods since a grant are counted, to 100. -/
def Grant.count (g : Grant) : Grant := { g with periods := min Config.timeoutPeriods (g.periods + 1) }

/-- The counts kept in reference clock periods: the hold time, the downstream timeout and the ATTN pulse. -/
def State.countPeriod (s : State) : State :=
  { s with
    pass := { s.pass with step := s.pass.step.count }
    arbiter := { s.arbiter with port := s.arbiter.port.map Grant.count }
    report := { s.report with attn := s.report.attn.map (· - 1) } }

/-- One reference clock period passes; the last of 25 000 is the 1 ms tick. No clock counts in reset. -/
def State.passPeriod (s : State) : State :=
  if s.inReset then s
  else
    let counted := s.countPeriod
    if s.prescale + 1 < Config.periodsPerTick then { counted with prescale := s.prescale + 1 }
    else ({ counted with prescale := 0 }).tick

end Sys2Proof.Machine
end

