-- ==== Sys2Proof/Machine/ArbiterFamily.lean ====
section
/-!
DEFINITION. The commands of the Memory Arbiter: grants (R40, R41) and failures (R42).
-/

namespace Sys2Proof.Machine

/-- R30, R31: the Pass Path's request when the port is free: its posted write, or the read in READ_OUT. -/
def State.passRequest (s : State) : Option Request :=
  match s.pass.buffer, s.pass.step with
  | some p, _ => some { addr := p.addr, write := some (p.data, p.lanes), master := some p.master }
  | none, .readOut a => some { addr := a.addr, master := some a.master }
  | none, _ => none

/-- R40: the highest waiting internal requester: Directive Unit, Sweep Engine, Report Unit. -/
def Arbiter.internalRequest (a : Arbiter) : Option (Requester × Request) :=
  match a.directive, a.sweep, a.report with
  | some r, _, _ => some (.directive, r)
  | none, some r, _ => some (.sweep, r)
  | none, none, some r => some (.report, r)
  | none, none, none => none

/-- R41: the starvation count becomes `n`. -/
def State.setStarvation (s : State) (n : Nat) : State :=
  { s with arbiter := { s.arbiter with starvation := n } }

/-- R40: the Pass Path's request is granted. -/
def State.grantPass (s : State) (r : Request) : State :=
  { s with arbiter := { s.arbiter with port := some { who := .passPath, request := r } } }

/-- R40, R41: an internal requester's request is granted, and the starvation count is set to 0. -/
def State.grantInternal (s : State) (who : Requester) (r : Request) : State :=
  let a := s.arbiter
  let granted := { a with port := some { who, request := r }, starvation := 0 }
  match who with
  | .passPath => s
  | .directive => { s with arbiter := { granted with directive := none } }
  | .sweep => { s with arbiter := { granted with sweep := none } }
  | .report => { s with arbiter := { granted with report := none } }

/-- R40, R41: the Memory Arbiter grants the free port. -/
def State.grantPort (s : State) : State :=
  if s.arbiter.port.isSome then s
  else
    match s.passRequest, s.arbiter.internalRequest with
    | some r, some (who, i) =>
      if s.arbiter.starvation < Config.starvationLimit then
        (s.grantPass r).setStarvation (s.arbiter.starvation + 1)
      else s.grantInternal who i
    | some r, none => (s.grantPass r).setStarvation 0
    | none, some (who, i) => s.grantInternal who i
    | none, none => s

/-- PORT_GRANT (R40). -/
def execPortGrant (s : State) : Host.Outcome State Fault Refusal := live State.grantPort s

/-- DOWNSTREAM_TIMEOUT (R42): the access in progress has not completed within its 100 periods. -/
def execDownstreamTimeout (s : State) : Host.Outcome State Fault Refusal := live State.failAccess s

/-- DOWNSTREAM_ERROR_COMPLETION (R42): memory completes the access in progress with its error signal, which is
treated alike. -/
def execDownstreamErrorCompletion (s : State) : Host.Outcome State Fault Refusal := live State.failAccess s

end Sys2Proof.Machine
end

