-- ==== Sys2Proof/Machine/Directives.lean ====
section
/-!
DEFINITION. The directives: for each kind, its checks in the manual's order (the answer of the first that
fails) and its effect as one event.
-/

namespace Sys2Proof.Machine

/-- R156: the directive in hand is executed when its chain has passed R155 and is of this kind: it is refused
with the first failed check's answer, or takes effect and is answered DONE with detail 0. -/
def State.runDirective (s : State) (k : DirectiveKind) (refusal : State → Option DirectiveAnswer)
    (effect : State → State) : State :=
  if s.directive.step = .checked ∧ chainKind s.directive.chain = some k then
    match refusal s with
    | some a => s.answerDirective a
    | none => (effect s).answerDirective ⟨.done, 0⟩
  else s

/-- The 1-based position of the first member of a list that satisfies `p`. -/
def firstPosition (p : Nat → Bool) (l : List Nat) : Option Nat := (l.findIdx? p).map (· + 1)

/-- REFUSED_STATE with detail 512, the refusal for window state. -/
def refusedWindow : DirectiveAnswer := ⟨.refusedState, 512⟩

/-! ### LAYOUT (R99, R160, R161) -/

/-- R160: two regions, each a base and a length, share an address. -/
def regionsMeet (a b : Nat × Nat) : Bool := decide (a.1 < b.1 + b.2 ∧ b.1 < a.1 + a.2)

/-- R160: some two regions of a list share an address. -/
def anyMeet : List (Nat × Nat) → Bool
  | [] => false
  | a :: rest => rest.any (regionsMeet a) || anyMeet rest

/-- R160: the five regions of a LAYOUT, the directive ring first. -/
def layoutRegions (ring : Nat) (f : LayoutFields) : List (Nat × Nat) :=
  [(ring, 2048), (f.connBase, 4 * f.connCount), (f.landBase, 16 * f.channelCount),
    (f.reportBase, 16 * (reportSizeOf f.sizeCode).getD 0), (f.summaryBase, 64)]

/-- R160: the nine placement checks of a LAYOUT, in order; true where the check fails. -/
def placementFailures (ring : Nat) (f : LayoutFields) : List Bool :=
  [f.connBase % 4 != 0,
    !(decide (1 ≤ f.connCount) && decide (f.connCount ≤ 8192)),
    f.landBase % 16 != 0,
    !(decide (1 ≤ f.channelCount) && decide (f.channelCount ≤ 512)),
    f.reportBase % 16 != 0,
    (reportSizeOf f.sizeCode).isNone,
    f.summaryBase % 64 != 0,
    (layoutRegions ring f).any fun r => decide (Config.busEnd < r.1 + r.2),
    anyMeet (layoutRegions ring f)]

/-- R160: the number of the first placement check a LAYOUT fails. -/
def placementFailure (ring : Nat) (f : LayoutFields) : Option Nat :=
  ((placementFailures ring f).findIdx? id).map (· + 1)

/-- R99: the Sweep Engine has a job running or waiting. -/
def Sweep.busy (w : Sweep) : Bool :=
  decide (w.job ≠ .none) || w.captureRequest.isSome || w.driftRequest || !w.restoreList.isEmpty

/-- R160, R99: the checks of a LAYOUT. In QUIET with several of R160's cases at once the answer has the detail of the first,
in the table's order (DESIGN CHOICE, log entry 22). -/
def State.layoutRefusal (s : State) : Option DirectiveAnswer :=
  match placementFailure s.ringBase (layoutFields s.directive.chain) with
  | some n => some ⟨.refusedRange, n⟩
  | none =>
    match s.window.state with
    | .noLayout => none
    | .quiet =>
      if s.loadedCircuits ≠ [] then some ⟨.refusedState, 1⟩
      else if s.journal.occupancy ≠ 0 then some ⟨.refusedState, 2⟩
      else if s.sweep.busy then some ⟨.refusedState, 3⟩
      else none
    | .opened | .settling | .sweeping | .verifying | .concluded => some refusedWindow

/-- R166: a LAYOUT overtakes a record in flight: the record goes on to the old ring and its report is owed
again, in this event (DEDUCED, log entry 13). -/
def State.overtakeRecord (s : State) : State :=
  match s.report.writer with
  | .writing item base left false => (s.owesAgain item).setWriter (.writing item base left true)
  | .writing _ _ _ true | .idle | .holdOff _ => s

/-- R161: the layout that a LAYOUT's fields place. -/
def LayoutFields.toLayout (f : LayoutFields) : Layout :=
  { connBase := f.connBase, connCount := f.connCount, landBase := f.landBase,
    channelCount := f.channelCount, reportBase := f.reportBase,
    reportSize := (reportSizeOf f.sizeCode).getD 0, summaryBase := f.summaryBase, framers := f.framers }

/-- R161, R28, R99: a LAYOUT is accepted. -/
def State.acceptLayout (s : State) : State :=
  let overtaken := s.overtakeRecord
  let placed := { overtaken with
    layout := some (layoutFields s.directive.chain).toLayout
    pass := { overtaken.pass with assembly := [] }
    report := { overtaken.report with producer := 0, consumer := 0, rejected := false } }
  (placed.wantSummary.setWindowState .quiet).oweWindow

/-! ### SET_POLICY (R162) -/

/-- R162: the checks of a SET_POLICY. -/
def State.policyRefusal (s : State) : Option DirectiveAnswer :=
  if (modeOf (policyFields s.directive.chain).modeCode).isNone then some ⟨.refusedRange, 1⟩
  else if s.window.state ≠ .quiet then some refusedWindow
  else none

/-- R162, R15: a SET_POLICY is executed. -/
def State.acceptPolicy (s : State) : State :=
  let f := policyFields s.directive.chain
  let t := s.setMode ((modeOf f.modeCode).getD s.store.mode)
  { t with report := { t.report with enables := f.enables } }

/-! ### LOAD (R18 to R23) -/

/-- R18 check 3: the position of the first entry at or above the connection count, or equal to an earlier
one. -/
def entryFailure (connCount : Nat) (seen : List Nat) : List Nat → Option Nat
  | [] => none
  | i :: rest =>
    if connCount ≤ i ∨ seen.contains i then some (seen.length + 1)
    else entryFailure connCount (seen ++ [i]) rest

/-- R18: the range checks of a LOAD; the detail of the one that fails. -/
def loadRange (layout : Option Layout) (f : LoadFields) : Option Nat :=
  if Config.circuits ≤ f.circuit then some 0
  else if f.entryCount < 1 ∨ 6 < f.entryCount then some 0
  else
    match entryFailure (layout.elim 0 Layout.connCount) [] f.entries with
    | some p => some p
    | none => if layout.elim 0 Layout.channelCount ≤ f.channel then some 0 else none

/-- R19: the state check of a LOAD, by the table of section 1.9; the detail where it refuses. -/
def loadState (w : WindowState) (st : CircuitState) : Option Nat :=
  match w with
  | .quiet =>
    match st with
    | .empty | .settled | .drifted | .faulted => none
    | .loading | .restoring | .held | .pending | .confirmed | .degraded | .broken | .silent => some 0
  | .opened =>
    match st with
    | .empty | .held => none
    | .loading | .settled | .drifted | .faulted | .restoring | .pending | .confirmed | .degraded | .broken
    | .silent => some 0
  | .noLayout | .settling | .sweeping | .verifying | .concluded => some 512

/-- R19: the other circuit that owns the first conflicting index, or that the channel is bound to. -/
def State.loadConflict (s : State) (f : LoadFields) : Option Nat :=
  let other (o : Option Nat) : Option Nat := o.filter (· != f.circuit)
  match f.entries.findSome? fun i => other (s.mapEntry i).owner with
  | some c => some c
  | none => other (s.boundTo f.channel)

/-- The fields of the LOAD in hand. -/
def State.loadInHand (s : State) : LoadFields := loadFields s.straps.bord s.directive.chain

/-- R18, R19: the checks of a LOAD. -/
def State.loadRefusal (s : State) : Option DirectiveAnswer :=
  let f := s.loadInHand
  match loadRange s.layout f with
  | some d => some ⟨.refusedRange, d⟩
  | none =>
    match loadState s.window.state (s.circuit f.circuit).state with
    | some d => some ⟨.refusedState, d⟩
    | none => (s.loadConflict f).map fun c => ⟨.conflict, c⟩

/-- R4: a circuit takes the expected tag and the judgement parameters of a LOAD, clamped. -/
def Circuit.takeParameters (r : Circuit) (f : LoadFields) : Circuit :=
  { r with
    tag := f.tag
    persistence := clampNat 1 15 f.persistence
    tolerance := clampNat 0 2000 f.tolerance
    floor := clampInt (-5000) 1000 f.floor
    shift := clampNat 0 4 f.shift }

/-- R20: a LOAD in QUIET makes the circuit LOADING and asks for its capture. -/
def State.loadInQuiet (s : State) (f : LoadFields) : State :=
  let c := f.circuit
  let listed := ((s.unlistRestore c).mapCircuit c fun r => r.takeParameters f).retarget c f.entries
  let fresh := (listed.bind c f.channel).mapCircuit c fun r =>
    { r with baseline := none, cause := none, sweepResult := none, restoreOutcome := none, suspect := false }
  let loading := fresh.setCircuitState c .loading
  ({ loading with sweep := { loading.sweep with captureRequest := some c } }).startNextJob

/-- R22: a LOAD in OPEN of an EMPTY circuit makes it HELD in the work set. -/
def State.loadEmptyInOpen (s : State) (f : LoadFields) : State :=
  let c := f.circuit
  let listed := (s.mapCircuit c fun r => r.takeParameters f).retarget c f.entries
  let fresh := (listed.bind c f.channel).mapCircuit c fun r =>
    { r with baseline := none, reference := none, entryCondition := some .unknown, prior := none,
             changeCount := 0, undeclared := false, redeclared := false }
  (fresh.setCircuitState c .held).setWorkMember c true

/-- R23: a LOAD in OPEN of a HELD circuit. -/
def State.loadHeldInOpen (s : State) (f : LoadFields) : State :=
  let c := f.circuit
  let old := s.circuit c
  let taken := s.mapCircuit c fun r => r.takeParameters f
  let listed :=
    if old.entries = f.entries then taken
    else (taken.retarget c f.entries).mapCircuit c fun r => { r with baseline := none, redeclared := true }
  if old.channel = some f.channel then listed
  else
    (listed.bind c f.channel).mapCircuit c fun r =>
      { r with reference := none, entryCondition := some .unknown }

/-- R20 to R23, R16: a LOAD that has passed its checks is executed; in QUIET the Directive Unit is held on it,
otherwise it is answered DONE. -/
def State.executeLoad (s : State) (f : LoadFields) : State :=
  if s.window.state = .quiet then (s.loadInQuiet f).setDirectiveStep .held
  else
    let loaded :=
      if (s.circuit f.circuit).state = .empty then s.loadEmptyInOpen f else s.loadHeldInOpen f
    (loaded.oweCircuit f.circuit).answerDirective ⟨.done, 0⟩

/-! ### DROP (R24, R25) -/

/-- R24, R25: the checks of a DROP. Detail 0 for a LOADING or RESTORING circuit in QUIET is the model's choice
(DESIGN CHOICE, log entry 20). -/
def State.dropRefusal (s : State) : Option DirectiveAnswer :=
  let c := circuitField s.directive.chain
  if Config.circuits ≤ c then some ⟨.refusedRange, 0⟩
  else
    match s.window.state with
    | .quiet =>
      match (s.circuit c).state with
      | .empty | .settled | .drifted | .faulted => none
      | .loading | .restoring | .held | .pending | .confirmed | .degraded | .broken | .silent =>
        some ⟨.refusedState, 0⟩
    | .opened => if (s.circuit c).state = .held then none else some ⟨.refusedState, 0⟩
    | .noLayout | .settling | .sweeping | .verifying | .concluded => some refusedWindow

/-- R24, R25: a DROP releases its circuit; a DROP of an EMPTY circuit changes no table. -/
def State.acceptDrop (s : State) : State :=
  let c := circuitField s.directive.chain
  if (s.circuit c).state = .empty then s else s.release c

/-! ### OPEN (R100 to R103) -/

/-- R118: the current job is a restore. -/
def Job.isRestore : Job → Bool
  | .restore _ _ _ => true
  | .none | .capture _ _ | .closeSweep _ _ _ _ | .driftSweep _ _ => false

/-- R100, R105: the first circuit of a list that is EMPTY. -/
def State.firstEmpty (s : State) (work : List Nat) : Option Nat :=
  work.find? fun c => decide ((s.circuit c).state = .empty)

/-- R100: the checks of an OPEN. -/
def State.openRefusal (s : State) : Option DirectiveAnswer :=
  let f := openFields s.directive.chain
  if 32 < f.workCount then some ⟨.refusedRange, 0⟩
  else
    match firstPosition (fun c => decide (Config.circuits ≤ c)) f.work with
    | some p => some ⟨.refusedRange, p⟩
    | none =>
      if s.window.state ≠ .quiet then some refusedWindow
      else if s.sweep.restoreList ≠ [] ∨ s.sweep.job.isRestore then some ⟨.busy, 1⟩
      else if s.journal.demand ≠ .none then some ⟨.busy, 2⟩
      else if 0 < s.journal.openBacklog then some ⟨.busy, 3⟩
      else (s.firstEmpty f.work).map fun c => ⟨.refusedState, c⟩

/-- R102: the entry condition from a channel's evidence and the circuit's expected tag. -/
def entryConditionOf (e : Evidence) (expected : Tag) : EntryCondition :=
  if e.dark then .bad
  else
    match e.accepted with
    | none => .unknown
    | some t => if t = expected then .good else .bad

/-- R102, R91: a loaded circuit's reference power and entry condition are captured, and its part in the last
window is cleared. -/
def State.captureEntry (s : State) (c : Nat) : State :=
  let r := s.circuit c
  let e := r.channel.elim {} s.evidenceOf
  s.putCircuit c { r with
    reference := e.power
    entryCondition := some (entryConditionOf e r.tag)
    changeCount := 0
    undeclared := false
    redeclared := false }

/-- R103, R104: a named circuit joins the work set, and one in SETTLED, DRIFTED or FAULTED takes that as its
prior state and becomes HELD. -/
def State.holdNamed (s : State) (c : Nat) : State :=
  let joined := s.setWorkMember c true
  match (s.circuit c).state.outside with
  | some o => (joined.mapCircuit c fun r => { r with prior := some o }).setCircuitState c .held
  | none => joined

/-- R101, R102, R103: an OPEN is executed. -/
def State.acceptOpen (s : State) : State :=
  let f := openFields s.directive.chain
  let captured := s.forEach s.loadedCircuits State.captureEntry
  let named :=
    (((captured.setWindowFlags false false).setWindowNumber f.number).clearWorkSet).forEach f.work
      State.holdNamed
  let timed := { named with
    window := { named.window with
      deadline := .running (1000 * clampNat 60 43200 f.deadline)
      settleTime := clampNat 0 900 f.settle
      verifyLimit := clampNat 30 7200 f.verify
      steadyTime := clampNat 0 255 f.steady }
    trace := { named.trace with silenceLimit := clampNat 100 60000 f.silence } }
  timed.setWindowState .opened

/-! ### MARK (R105) -/

/-- R105: the checks of a MARK. -/
def State.markRefusal (s : State) : Option DirectiveAnswer :=
  let n := markCount s.directive.chain
  let work := markList s.directive.chain
  if n < 1 ∨ 40 < n then some ⟨.refusedRange, 0⟩
  else
    match firstPosition (fun c => decide (Config.circuits ≤ c)) work with
    | some p => some ⟨.refusedRange, p⟩
    | none =>
      if s.window.state ≠ .opened then some refusedWindow
      else (s.firstEmpty work).map fun c => ⟨.refusedState, c⟩

/-- R105: the effect of a MARK on one named circuit. -/
def State.markNamed (s : State) (c : Nat) : State :=
  if (s.circuit c).state.outside.isSome then
    (s.mapCircuit c fun r =>
      { r with changeCount := 0, undeclared := false, redeclared := false }).holdNamed c
  else s.holdNamed c

/-- R105: a MARK is executed. -/
def State.acceptMark (s : State) : State := s.forEach (markList s.directive.chain) State.markNamed

/-! ### CLOSE (R107), ABANDON (R113, R114, R116), ACCEPT (R115, R116), RECHECK (R147, R148) -/

/-- A directive taken only in one window state. -/
def State.refusedUnless (s : State) (w : WindowState) : Option DirectiveAnswer :=
  if s.window.state = w then none else some refusedWindow

/-- R113: ABANDON is taken in OPEN to CONCLUDED. -/
def State.abandonRefusal (s : State) : Option DirectiveAnswer :=
  match s.window.state with
  | .opened | .settling | .sweeping | .verifying | .concluded => none
  | .noLayout | .quiet => some refusedWindow

/-- R113, R125: ABANDON stops a close sweep: a request not granted or waiting for its retry is withdrawn, and a
read already granted is left to run with its result to be discarded. -/
def State.stopCloseSweep (s : State) : State :=
  match s.sweep.job with
  | .closeSweep _ _ _ _ =>
    let discard (g : Grant) : Grant :=
      if g.who = .sweep then { g with request := { g.request with stale := true } } else g
    { s.endJob with arbiter := { s.arbiter with sweep := none, port := s.arbiter.port.map discard } }
  | .none | .capture _ _ | .driftSweep _ _ | .restore _ _ _ => s

/-- R113: every timer of the window stops. -/
def State.stopWindowTimers (s : State) : State :=
  ({ s with window := { s.window with deadline := .stopped, settle := .stopped } }).stopVerdictTimers.stopSilence

/-- R114: the state a window circuit leaves an abandoned window for. -/
def abandonedState (r : Circuit) : CircuitState :=
  if 0 < r.changeCount ∨ r.redeclared ∨ r.undeclared then .drifted
  else if r.baseline = none then .drifted
  else if r.sweepResult = some .changed ∨ r.sweepResult = some .new then .drifted
  else
    match r.prior with
    | some o => o.toState
    | none => .drifted

/-- R114, R116: window circuit `c` leaves an abandoned window. -/
def State.leaveAbandoned (s : State) (c : Nat) : State :=
  let r := s.circuit c
  (s.putCircuit c { r with
    cause := none, verdictChanges := 0, prior := none, swept := none, sweepResult := none }).setCircuitState c
      (abandonedState r)

/-- R56: ABANDON taken with the journal OVERRUN flag set makes a drift sweep owed. -/
def State.oweSweepIfOverrun (s : State) : State :=
  if s.journal.overrun.isSome ∧ s.journal.demand = .none then s.setDemand .owed else s

/-- R113, R114, R116, R56: an ABANDON is executed. -/
def State.acceptAbandon (s : State) : State :=
  let stopped := s.stopCloseSweep.stopWindowTimers
  let left := stopped.forEach stopped.windowCircuits State.leaveAbandoned
  left.endWindow.oweSweepIfOverrun.markDriftDue.startNextJob

/-- R115: whether ACCEPT makes a window circuit SETTLED. -/
def acceptable (degradedOk : Bool) (st : CircuitState) : Bool :=
  match st with
  | .confirmed => true
  | .degraded => degradedOk
  | .empty | .loading | .settled | .drifted | .faulted | .restoring | .held | .pending | .broken
  | .silent => false

/-- R115, R116: window circuit `c` leaves an accepted window. -/
def State.leaveAccepted (degradedOk : Bool) (s : State) (c : Nat) : State :=
  let r := s.circuit c
  if acceptable degradedOk r.state then
    (s.putCircuit c { r with
      baseline := r.swept, cause := none, prior := none, swept := none, sweepResult := none }).setCircuitState
        c .settled
  else
    (s.putCircuit c { r with prior := none, swept := none, sweepResult := none }).setCircuitState c .faulted

/-- R56: ACCEPT taken with the journal OVERRUN flag set and no drift sweep owed clears the flag. -/
def State.clearOverrunIfUnowed (s : State) : State :=
  if s.journal.demand = .none then s.clearOverrun else s

/-- R115, R116, R56: an ACCEPT is executed. -/
def State.acceptAccept (s : State) : State :=
  let ok := degradedAcceptable s.directive.chain
  let left := s.forEach s.windowCircuits (State.leaveAccepted ok)
  left.endWindow.clearOverrunIfUnowed.markDriftDue.startNextJob

/-- R148: the circuits a RECHECK sends back to PENDING. -/
def Circuit.rechecked (r : Circuit) : Bool :=
  match r.state with
  | .degraded | .silent => true
  | .broken => decide (r.cause = some .tagMismatch)
  | .empty | .loading | .settled | .drifted | .faulted | .restoring | .held | .pending | .confirmed => false

/-! ### RESTORE (R128) -/

/-- R128: the checks of a RESTORE. -/
def State.restoreRefusal (s : State) : Option DirectiveAnswer :=
  let c := circuitField s.directive.chain
  let r := s.circuit c
  if Config.circuits ≤ c then some ⟨.refusedRange, 0⟩
  else if s.window.state ≠ .quiet then some refusedWindow
  else if r.state ≠ .drifted ∧ r.state ≠ .faulted then some ⟨.refusedState, 0⟩
  else if r.baseline = none then some ⟨.refusedRange, 1⟩
  else
    match firstPosition (· == c) s.sweep.restoreList with
    | some p => some ⟨.duplicate, p⟩
    | none => if Config.restoreRoom ≤ s.sweep.restoreList.length then some ⟨.busy, 0⟩ else none

/-- R128, R119: a RESTORE appends its circuit to the restore list; if the engine has no job the restore
starts. -/
def State.acceptRestore (s : State) : State :=
  let c := circuitField s.directive.chain
  (({ s with sweep := { s.sweep with
      restoreList := s.sweep.restoreList ++ [c] } }).wantSummary).startNextJob

end Sys2Proof.Machine
end

