-- ==== Sys2Proof/Machine/DirectiveFamily.lean ====
section
/-!
DEFINITION. The commands of the Directive Unit: the execution of the directive in hand, kind by kind (R156), and
the ends of its fetch reads (R153) and completion writes (R157).
-/

namespace Sys2Proof.Machine

/-- LAYOUT (R99, R160, R161). -/
def execLayout (s : State) : Host.Outcome State Fault Refusal :=
  live (fun s => s.runDirective .layout State.layoutRefusal State.acceptLayout) s

/-- SET_POLICY (R162). -/
def execSetPolicy (s : State) : Host.Outcome State Fault Refusal :=
  live (fun s => s.runDirective .setPolicy State.policyRefusal State.acceptPolicy) s

/-- R156, R18 to R23: a LOAD is refused, or executed; in QUIET its outcome waits for the capture. -/
def State.runLoad (s : State) : State :=
  if s.directive.step = .checked ∧ chainKind s.directive.chain = some .load then
    match s.loadRefusal with
    | some a => s.answerDirective a
    | none => s.executeLoad s.loadInHand
  else s

/-- LOAD (R18 to R23). -/
def execLoad (s : State) : Host.Outcome State Fault Refusal := live State.runLoad s

/-- DROP (R24, R25). -/
def execDrop (s : State) : Host.Outcome State Fault Refusal :=
  live (fun s => s.runDirective .drop State.dropRefusal State.acceptDrop) s

/-- OPEN (R100 to R103). -/
def execOpenWindow (s : State) : Host.Outcome State Fault Refusal :=
  live (fun s => s.runDirective .openWindow State.openRefusal State.acceptOpen) s

/-- MARK (R105). -/
def execMark (s : State) : Host.Outcome State Fault Refusal :=
  live (fun s => s.runDirective .mark State.markRefusal State.acceptMark) s

/-- CLOSE (R107, R108). -/
def execClose (s : State) : Host.Outcome State Fault Refusal :=
  live (fun s => s.runDirective .close (fun s => s.refusedUnless .opened) State.closeWindow) s

/-- ABANDON (R113, R114, R116). -/
def execAbandon (s : State) : Host.Outcome State Fault Refusal :=
  live (fun s => s.runDirective .abandon State.abandonRefusal State.acceptAbandon) s

/-- ACCEPT (R115, R116). -/
def execAccept (s : State) : Host.Outcome State Fault Refusal :=
  live (fun s => s.runDirective .accept (fun s => s.refusedUnless .concluded) State.acceptAccept) s

/-- RECHECK (R147, R148). -/
def execRecheck (s : State) : Host.Outcome State Fault Refusal :=
  live (fun s => s.runDirective .recheck (fun s => s.refusedUnless .concluded) fun s =>
    s.enterVerifying Circuit.rechecked) s

/-- RESTORE (R128). -/
def execRestore (s : State) : Host.Outcome State Fault Refusal :=
  live (fun s => s.runDirective .restore State.restoreRefusal State.acceptRestore) s

/-- R153: the fetch read in progress completes with this word. -/
def State.completeFetchRead (s : State) (data : Word) : State :=
  match s.portOf .directive, s.directive.step with
  | some _, .fetching words => s.freePort.takeFetchedWord words data
  | _, _ => s

/-- DIRECTIVE_FETCH_READ_COMPLETE (R153). -/
def execDirectiveFetchReadComplete (data : Word) (s : State) : Host.Outcome State Fault Refusal :=
  live (fun s => s.completeFetchRead data) s

/-- R157: the completion write in progress ends. -/
def State.completeCompletionWrite (s : State) : State :=
  match s.portOf .directive, s.directive.step with
  | some _, .completing left advance => s.freePort.endCompletionWrite left advance
  | _, _ => s

/-- DIRECTIVE_COMPLETION_WRITE_END (R157). -/
def execDirectiveCompletionWriteEnd (s : State) : Host.Outcome State Fault Refusal :=
  live State.completeCompletionWrite s

end Sys2Proof.Machine
end

