-- ==== Sys2Proof/Machine/JournalFamily.lean ====
section
/-!
DEFINITION. The command of the Change Journal: classification (R57).
-/

namespace Sys2Proof.Machine

/-- CLASSIFY (R57). -/
def execClassify (s : State) : Host.Outcome State Fault Refusal := live State.classifyNext s

end Sys2Proof.Machine
end

