-- ==== Sys2Proof/Machine/PassPath.lean ====
section
/-!
DEFINITION. The commands of the Pass Path: the accesses masters present (R29 to R38, R44), the end of a hold at
its limit (R36), and the completions of forwarded accesses (R30, R31).
-/

namespace Sys2Proof.Machine

/-- CONNECTION_WRITE (R32): a master presents a write. The class of its address, not the name of the row,
decides what the part does with it (R27). -/
def execConnectionWrite (addr : WordAddr) (data : Word) (lanes : Lanes) (m : Master) (s : State) :
    Host.Outcome State Fault Refusal := presentWrite addr data lanes m s

/-- LANDING_TAG_WRITE (R34): a master presents a write; its class decides (R27). -/
def execLandingTagWrite (addr : WordAddr) (data : Word) (lanes : Lanes) (m : Master) (s : State) :
    Host.Outcome State Fault Refusal := presentWrite addr data lanes m s

/-- CLOSING_WORD (R35): a master presents a write that carries all four lanes; its class decides (R27). -/
def execClosingWord (addr : WordAddr) (data : Word) (m : Master) (s : State) :
    Host.Outcome State Fault Refusal := live (fun s => s.present addr (.write data 0xF) m) s

/-- CONSUMER_WORD_WRITE (R38): a master presents a write; its class decides (R27). -/
def execConsumerWordWrite (addr : WordAddr) (data : Word) (lanes : Lanes) (m : Master) (s : State) :
    Host.Outcome State Fault Refusal := presentWrite addr data lanes m s

/-- UPSTREAM_WRITE (R29): a master presents a write; its class decides (R27). -/
def execUpstreamWrite (addr : WordAddr) (data : Word) (lanes : Lanes) (m : Master) (s : State) :
    Host.Outcome State Fault Refusal := presentWrite addr data lanes m s

/-- UPSTREAM_READ (R31): a master presents a read. -/
def execUpstreamRead (addr : WordAddr) (m : Master) (s : State) : Host.Outcome State Fault Refusal :=
  live (fun s => s.present addr .read m) s

/-- LATE_ERROR_ACCESS (R44): a master presents its next access, of either direction. -/
def execLateErrorAccess (addr : WordAddr) (op : AccessOp) (m : Master) (s : State) :
    Host.Outcome State Fault Refusal :=
  match op with
  | .read => live (fun s => s.present addr .read m) s
  | .write data lanes => presentWrite addr data lanes m s

/-- R36: the hold reaches its limit: the closing word is accepted and forwarded, its arrival is discarded and
the channel's gap flag is set (R75). -/
def State.expireHold (s : State) : State :=
  match s.pass.step with
  | .hold a _ =>
    match a.op, a.cls with
    | .write data lanes, .landing ch _ =>
      (s.mapEvidence ch fun e => { e with gap := true }).postWrite a data lanes
    | _, _ => s
  | .idle | .drainWait _ | .readOut _ => s

/-- HOLD_LIMIT_EXPIRY (R36). -/
def execHoldLimitExpiry (s : State) : Host.Outcome State Fault Refusal := live State.expireHold s

/-- R30, R37: the posted write completes downstream. -/
def State.completeForwardedWrite (s : State) : State :=
  match s.portOf .passPath, s.pass.buffer with
  | some _, some p => ((s.freePort.noteReady p).emptyBuffer).seekSlot
  | _, _ => s

/-- FORWARDED_WRITE_COMPLETE (R30). -/
def execForwardedWriteComplete (s : State) : Host.Outcome State Fault Refusal :=
  live State.completeForwardedWrite s

/-- R31, R39: the forwarded read completes: its data goes to the master, and that of a read of the attention
word to the Report Unit as well. -/
def State.completeForwardedRead (s : State) (data : Word) : State :=
  match s.portOf .passPath, s.pass.buffer, s.pass.step with
  | some _, none, .readOut a =>
    let answered := s.freePort.answerMaster a.master (.readData data)
    if a.cls = .attentionWord then answered.clearAttention data else answered
  | _, _, _ => s

/-- FORWARDED_READ_COMPLETE (R31). -/
def execForwardedReadComplete (data : Word) (s : State) : Host.Outcome State Fault Refusal :=
  live (fun s => s.completeForwardedRead data) s

end Sys2Proof.Machine
end

