-- ==== Sys2Proof/Machine/ReportFamily.lean ====
section
/-!
DEFINITION. The commands of the Report Unit: its writers' starts, word completions and hold-offs (R165, R166,
R168), and the end of the ATTN pulse (R169).
-/

namespace Sys2Proof.Machine

/-- R165: the report writer chooses and starts a report, if it may. -/
def State.startReport (s : State) : State := if s.reportMayStart then s.chooseReport else s

/-- REPORT_WRITE_START (R165). -/
def execReportWriteStart (s : State) : Host.Outcome State Fault Refusal := live State.startReport s

/-- R166: the record word write in progress completes. -/
def State.completeReportWord (s : State) : State :=
  match s.portOf .report, s.report.writer with
  | some _, .writing item base left overtaken => s.freePort.endRecordWord item base left overtaken
  | _, _ => s

/-- REPORT_WORD_COMPLETE (R166). -/
def execReportWordComplete (s : State) : Host.Outcome State Fault Refusal := live State.completeReportWord s

/-- R166: the report writer's HOLD_OFF ends. -/
def State.endReportHoldOff (s : State) : State :=
  match s.report.writer with
  | .holdOff _ => s.setWriter .idle
  | .idle | .writing _ _ _ _ => s

/-- REPORT_HOLD_OFF_EXPIRY (R166). -/
def execReportHoldOffExpiry (s : State) : Host.Outcome State Fault Refusal := live State.endReportHoldOff s

/-- R168: a summary rewrite starts, if it is due. -/
def State.rewriteSummary (s : State) : State := if s.summaryDue then s.startSummary else s

/-- SUMMARY_REWRITE_START (R168). -/
def execSummaryRewriteStart (s : State) : Host.Outcome State Fault Refusal := live State.rewriteSummary s

/-- R168: the summary word write in progress completes. -/
def State.completeSummaryWord (s : State) : State :=
  match s.portOf .report, s.report.summary with
  | some _, .writing base left snapshot => s.freePort.endSummaryWord base left snapshot
  | _, _ => s

/-- SUMMARY_WORD_COMPLETE (R168). -/
def execSummaryWordComplete (s : State) : Host.Outcome State Fault Refusal := live State.completeSummaryWord s

/-- R168: the summary writer's HOLD_OFF ends. -/
def State.endSummaryHoldOff (s : State) : State :=
  match s.report.summary with
  | .holdOff _ => s.setSummary .idle
  | .idle | .writing _ _ _ => s

/-- SUMMARY_HOLD_OFF_EXPIRY (R168). -/
def execSummaryHoldOffExpiry (s : State) : Host.Outcome State Fault Refusal := live State.endSummaryHoldOff s

/-- R169: the ATTN pulse ends and ATTN returns low. -/
def State.endPulse (s : State) : State := { s with report := { s.report with attn := none } }

/-- ATTN_PULSE_END (R169). -/
def execAttnPulseEnd (s : State) : Host.Outcome State Fault Refusal := live State.endPulse s

end Sys2Proof.Machine
end

