-- ==== Sys2Proof/Machine/SweepFamily.lean ====
section
/-!
DEFINITION. The completions of the Sweep Engine's accesses (R121, R122, R126, R130).
-/

namespace Sys2Proof.Machine

/-- R121: a capture read completes: its word becomes the baseline word at the position. -/
def State.takeCaptureWord (s : State) (c p : Nat) (data : Word) : State :=
  let kept := s.mapCircuit c fun r => { r with baseline := some (r.baseline.getD [] ++ [data]) }
  if p < (s.circuit c).entries.length then kept.runJob (.capture c (p + 1)) else kept.finishCapture c

/-- R121: the capture read in progress completes. -/
def State.completeCaptureRead (s : State) (data : Word) : State :=
  match s.portOf .sweep, s.sweep.job with
  | some r, .capture c p => if r.stale then s else s.freePort.takeCaptureWord c p data
  | _, _ => s

/-- CAPTURE_READ_COMPLETE (R121). -/
def execCaptureReadComplete (data : Word) (s : State) : Host.Outcome State Fault Refusal :=
  live (fun s => s.completeCaptureRead data) s

/-- R122: a close sweep read completes: its word joins the words in hand, and the last one ends the circuit. -/
def State.takeCloseWord (s : State) (set : List Nat) (c p : Nat) (words : List Word) (data : Word) : State :=
  let read := words ++ [data]
  if p < (s.circuit c).entries.length then s.runJob (.closeSweep set c (p + 1) read)
  else (s.recordSwept c read).sweepOn set (c + 1)

/-- R122, R125: the close sweep read in progress completes; that of a stopped sweep is discarded. -/
def State.completeCloseSweepRead (s : State) (data : Word) : State :=
  match s.portOf .sweep with
  | none => s
  | some r =>
    if r.stale then s.freePort.releaseHeldSweep
    else
      match s.sweep.job with
      | .closeSweep set c p words => s.freePort.takeCloseWord set c p words data
      | .none | .capture _ _ | .driftSweep _ _ | .restore _ _ _ => s

/-- CLOSE_SWEEP_READ_COMPLETE (R122). -/
def execCloseSweepReadComplete (data : Word) (s : State) : Host.Outcome State Fault Refusal :=
  live (fun s => s.completeCloseSweepRead data) s

/-- R126: the drift sweep read in progress completes. -/
def State.completeDriftSweepRead (s : State) (data : Word) : State :=
  match s.portOf .sweep, s.sweep.job with
  | some r, .driftSweep c p => if r.stale then s else s.freePort.takeDriftWord c p data
  | _, _ => s

/-- DRIFT_SWEEP_READ_COMPLETE (R126). -/
def execDriftSweepReadComplete (data : Word) (s : State) : Host.Outcome State Fault Refusal :=
  live (fun s => s.completeDriftSweepRead data) s

/-- R130, R131: the restore write in progress completes: the next entry's write is requested, or the restore
ends DONE. -/
def State.completeRestoreWrite (s : State) : State :=
  match s.portOf .sweep, s.sweep.job with
  | some r, .restore c p earlier =>
    if r.stale then s
    else if p < (s.circuit c).entries.length then s.freePort.runJob (.restore c (p + 1) earlier)
    else s.freePort.finishRestore c .settled .done none
  | _, _ => s

/-- RESTORE_WRITE_COMPLETE (R130). -/
def execRestoreWriteComplete (s : State) : Host.Outcome State Fault Refusal :=
  live State.completeRestoreWrite s

end Sys2Proof.Machine
end

