-- ==== Sys2Proof/Machine/TraceFamily.lean ====
section
/-!
DEFINITION. The commands of the Trace Monitor: the consumption of an arrival (R67) and the expiry of a silence
timer (R78).
-/

namespace Sys2Proof.Machine

/-- R67 steps 4 and 5: the evidence of a bound channel after an arrival's power and tag steps. -/
def State.evidenceAfter (s : State) (c : Nat) (a : Arrival) : Evidence :=
  let r := s.circuit c
  tagStep r.persistence a (powerStep r.shift a.power (s.evidenceOf a.channel))

/-- R77: the silence timer after a consumption on the channel of circuit `c`. -/
def State.silenceAfter (s : State) (c : Nat) (a : Arrival) : Timer :=
  if a.tagState = .valid ∧ (s.circuit c).state.inWindow ∧ s.window.state = .verifying then
    .running s.trace.silenceLimit
  else (s.evidenceOf a.channel).silence

/-- R67 steps 4 to 7: an arrival is applied to the evidence of its channel, bound to circuit `c`. -/
def State.applyArrival (s : State) (c : Nat) (a : Arrival) : State :=
  (s.putEvidence a.channel { s.evidenceAfter c a with silence := s.silenceAfter c a }).evaluateHandedOver c
    a.channel

/-- R36: room in the arrival queue ends a hold: the closing word is accepted. -/
def State.endHold (s : State) : State :=
  match s.pass.step with
  | .hold a _ =>
    match a.op, a.cls with
    | .write data lanes, .landing ch _ => s.acceptClosing a ch data lanes
    | _, _ => s
  | .idle | .drainWait _ | .readOut _ => s

/-- R67, R68: the tag filter takes the head arrival, and applies it if its channel is bound. -/
def State.consumeArrival (s : State) : State :=
  match s.trace.arrivals with
  | [] => s
  | a :: rest =>
    let taken := ({ s with trace := { s.trace with arrivals := rest } }).wantSummary
    (taken.forSome (taken.boundTo a.channel) fun t c => t.applyArrival c a).endHold

/-- ARRIVAL_CONSUMPTION (R67). -/
def execArrivalConsumption (s : State) : Host.Outcome State Fault Refusal := live State.consumeArrival s

/-- R78: the RUNNING silence timer of channel `ch` expires, and the bound circuit is evaluated. -/
def State.expireSilence (s : State) (ch : Nat) : State :=
  match (s.evidenceOf ch).silence with
  | .running _ => (s.setSilence ch .expired).forSome (s.boundTo ch) fun t c => t.evaluateHandedOver c ch
  | .stopped | .expired => s

/-- SILENCE_EXPIRY (R78). -/
def execSilenceExpiry (channel : Fin 512) (s : State) : Host.Outcome State Fault Refusal :=
  live (fun s => s.expireSilence channel.val) s

end Sys2Proof.Machine
end

