-- ==== Sys2Proof/Machine/WindowFamily.lean ====
section
/-!
DEFINITION. The expiries of the window's and the Verdict Unit's timers (R107, R110, R142, R144). Each command is
the timer's remaining time reaching 0 (log entry 4); a timer that does not run does not expire.
-/

namespace Sys2Proof.Machine

/-- R107: the deadline expires: the window closes with OVERTIME set and raised. -/
def State.expireDeadline (s : State) : State :=
  match s.window.state, s.window.deadline with
  | .opened, .running _ => ((s.setWindowFlags s.window.overrun true).raise .overtime).closeWindow
  | _, _ => s

/-- DEADLINE_EXPIRY (R107). -/
def execDeadlineExpiry (s : State) : Host.Outcome State Fault Refusal := live State.expireDeadline s

/-- R109, R110: the settle timer expires, and the window enters SWEEPING if the open backlog is 0. -/
def State.expireSettle (s : State) : State :=
  match s.window.state, s.window.settle with
  | .settling, .running _ =>
    ({ s with window := { s.window with settle := .expired } }).leaveSettlingIfDone
  | _, _ => s

/-- SETTLE_EXPIRY (R110). -/
def execSettleExpiry (s : State) : Host.Outcome State Fault Refusal := live State.expireSettle s

/-- R133: a timer of the Verdict Unit that expires stops with a remaining time of 0. -/
def VerdictTimer.expire : VerdictTimer := { running := false, remaining := 0 }

/-- R142: the steady timer expires and the window concludes. After a restart (R145) the command is the end of the
restarted count (log entry 4). -/
def State.expireSteady (s : State) : State :=
  if s.window.state = .verifying ∧ s.verdict.steady.running then
    ({ s with verdict := { s.verdict with steady := VerdictTimer.expire } }).conclude
  else s

/-- STEADY_EXPIRY (R142). -/
def execSteadyExpiry (s : State) : Host.Outcome State Fault Refusal := live State.expireSteady s

/-- R144: the verify limit expires: every PENDING circuit becomes SILENT with NO_EVIDENCE, and the window
concludes. -/
def State.expireVerifyLimit (s : State) : State :=
  if s.window.state = .verifying ∧ s.verdict.limit.running then
    let silenced := s.forEach (s.circuitsWhere fun r => r.state = .pending) fun s c =>
      s.changeVerdict c .silent (some .noEvidence)
    ({ silenced with verdict := { silenced.verdict with limit := VerdictTimer.expire } }).conclude
  else s

/-- VERIFY_LIMIT_EXPIRY (R144). -/
def execVerifyLimitExpiry (s : State) : Host.Outcome State Fault Refusal := live State.expireVerifyLimit s

end Sys2Proof.Machine
end

