-- ==== Sys2Proof/Machine/Dispatch.lean ====
section
/-! DEFINITION. The meaning of every command: one arm for each row of spec/opcode_table.json. -/

namespace Sys2Proof.Machine

def exec (i : Instr) (s : State) : Host.Outcome State Fault Refusal :=
  match i with
  | .reset => Sys2Proof.Machine.execReset s
  | .resetEnd dring bord => Sys2Proof.Machine.execResetEnd dring bord s
  | .connectionWrite addr data lanes master => Sys2Proof.Machine.execConnectionWrite addr data lanes master s
  | .landingTagWrite addr data lanes master => Sys2Proof.Machine.execLandingTagWrite addr data lanes master s
  | .closingWord addr data master => Sys2Proof.Machine.execClosingWord addr data master s
  | .holdLimitExpiry => Sys2Proof.Machine.execHoldLimitExpiry s
  | .consumerWordWrite addr data lanes master => Sys2Proof.Machine.execConsumerWordWrite addr data lanes master s
  | .upstreamWrite addr data lanes master => Sys2Proof.Machine.execUpstreamWrite addr data lanes master s
  | .upstreamRead addr master => Sys2Proof.Machine.execUpstreamRead addr master s
  | .lateErrorAccess addr op master => Sys2Proof.Machine.execLateErrorAccess addr op master s
  | .portGrant => Sys2Proof.Machine.execPortGrant s
  | .forwardedWriteComplete => Sys2Proof.Machine.execForwardedWriteComplete s
  | .forwardedReadComplete data => Sys2Proof.Machine.execForwardedReadComplete data s
  | .downstreamTimeout => Sys2Proof.Machine.execDownstreamTimeout s
  | .downstreamErrorCompletion => Sys2Proof.Machine.execDownstreamErrorCompletion s
  | .classify => Sys2Proof.Machine.execClassify s
  | .arrivalConsumption => Sys2Proof.Machine.execArrivalConsumption s
  | .silenceExpiry channel => Sys2Proof.Machine.execSilenceExpiry channel s
  | .layout => Sys2Proof.Machine.execLayout s
  | .setPolicy => Sys2Proof.Machine.execSetPolicy s
  | .load => Sys2Proof.Machine.execLoad s
  | .drop => Sys2Proof.Machine.execDrop s
  | .openWindow => Sys2Proof.Machine.execOpenWindow s
  | .mark => Sys2Proof.Machine.execMark s
  | .close => Sys2Proof.Machine.execClose s
  | .abandon => Sys2Proof.Machine.execAbandon s
  | .accept => Sys2Proof.Machine.execAccept s
  | .recheck => Sys2Proof.Machine.execRecheck s
  | .restore => Sys2Proof.Machine.execRestore s
  | .deadlineExpiry => Sys2Proof.Machine.execDeadlineExpiry s
  | .settleExpiry => Sys2Proof.Machine.execSettleExpiry s
  | .steadyExpiry => Sys2Proof.Machine.execSteadyExpiry s
  | .verifyLimitExpiry => Sys2Proof.Machine.execVerifyLimitExpiry s
  | .captureReadComplete data => Sys2Proof.Machine.execCaptureReadComplete data s
  | .closeSweepReadComplete data => Sys2Proof.Machine.execCloseSweepReadComplete data s
  | .driftSweepReadComplete data => Sys2Proof.Machine.execDriftSweepReadComplete data s
  | .restoreWriteComplete => Sys2Proof.Machine.execRestoreWriteComplete s
  | .directiveFetchReadComplete data => Sys2Proof.Machine.execDirectiveFetchReadComplete data s
  | .directiveCompletionWriteEnd => Sys2Proof.Machine.execDirectiveCompletionWriteEnd s
  | .reportWriteStart => Sys2Proof.Machine.execReportWriteStart s
  | .reportWordComplete => Sys2Proof.Machine.execReportWordComplete s
  | .reportHoldOffExpiry => Sys2Proof.Machine.execReportHoldOffExpiry s
  | .summaryRewriteStart => Sys2Proof.Machine.execSummaryRewriteStart s
  | .summaryWordComplete => Sys2Proof.Machine.execSummaryWordComplete s
  | .summaryHoldOffExpiry => Sys2Proof.Machine.execSummaryHoldOffExpiry s
  | .attnPulseEnd => Sys2Proof.Machine.execAttnPulseEnd s

end Sys2Proof.Machine
end

