-- ==== Sys2Proof/Safety.lean ====
section
/-!
DEFINITION. What holds of the part at all times, in the terms the statements use. Each definition is a property
of one state; the statements say which of them every step keeps.
-/

namespace Sys2Proof.Machine

/-! ### The tables -/

/-- Every table of the part is in canonical form. -/
def State.tablesCanonical (s : State) : Prop :=
  Table.canonical {} s.store.circuits ∧ Table.canonical {} s.store.entryMap
    ∧ Table.canonical none s.store.channelMap ∧ Table.canonical 0 s.store.counts
    ∧ Table.canonical zeroTag s.pass.assembly ∧ Table.canonical false s.pass.lateMarks
    ∧ Table.canonical {} s.trace.evidence ∧ Table.canonical false s.window.workSet
    ∧ Table.canonical false s.directive.ready ∧ Table.canonical false s.report.owed

/-- R10: the owner of an index is the circuit that lists it. -/
def State.entriesAgree (s : State) : Prop :=
  ∀ i c, (s.mapEntry i).owner = some c ↔ i ∈ (s.circuit c).entries

/-- R13: every fenced flag equals the fence rule. -/
def State.fencesAgree (s : State) : Prop := ∀ i, (s.mapEntry i).fenced = s.fenceRule (s.mapEntry i).owner

/-- R11: the channel map names the circuit that has the channel. -/
def State.channelsAgree (s : State) : Prop :=
  ∀ ch c, s.boundTo ch = some c ↔ (s.circuit c).channel = some ch

/-! ### Circuit numbers and counts -/

/-- R118: the circuit numbers a job works on lie in 0 … 511. -/
def Job.inRange : Job → Prop
  | .none => True
  | .capture c _ => c < Config.circuits
  | .closeSweep set c _ _ => c < Config.circuits ∧ ∀ k ∈ set, k < Config.circuits
  | .driftSweep c _ => c < Config.circuits
  | .restore c _ _ => c < Config.circuits

/-- Every circuit number the part holds for work lies in 0 … 511. -/
def State.numbersInRange (s : State) : Prop :=
  (∀ i c, (s.mapEntry i).owner = some c → c < Config.circuits)
    ∧ (∀ ch c, s.boundTo ch = some c → c < Config.circuits)
    ∧ s.sweep.job.inRange
    ∧ (∀ c, s.sweep.captureRequest = some c → c < Config.circuits)
    ∧ ∀ c ∈ s.sweep.restoreList, c < Config.circuits

/-- R16: each of the twelve counts is the number of circuits in its state. -/
def State.countsAgree (s : State) : Prop :=
  ∀ st, s.count st = (s.circuitsWhere fun r => r.state = st).length

/-- R171: the ASSURED line is high exactly while its condition holds. -/
def State.assuredAgrees (s : State) : Prop := s.report.assured = s.assuredCondition

/-! ### Ranges -/

/-- R70, R86, R89: the ranges and ties of one evidence record. -/
def Evidence.sound (e : Evidence) : Prop :=
  e.run ≤ Config.runMax ∧ (e.candidate = none ↔ e.run = 0) ∧ (e.dark = true → e.power = none)
    ∧ ∀ p, e.power = some p → -5000 ≤ p ∧ p ≤ 1000

/-- R70, R86, R89, R91: every evidence record is sound, and every reference power lies in −5000 … +1000. -/
def State.evidenceSound (s : State) : Prop :=
  (∀ ch, (s.evidenceOf ch).sound)
    ∧ ∀ c p, (s.circuit c).reference = some p → -5000 ≤ p ∧ p ≤ 1000

/-- R8, R41, R66, R118, R129: the ranges of the saturating counts, the starvation count, the arrival queue and
the restore list, whose circuits are distinct. -/
def State.withinBounds (s : State) : Prop :=
  (∀ c, (s.circuit c).changeCount ≤ Config.countMax ∧ (s.circuit c).fenceHits ≤ Config.countMax
    ∧ (s.circuit c).verdictChanges ≤ Config.countMax)
    ∧ s.arbiter.starvation ≤ Config.starvationLimit
    ∧ s.trace.arrivals.length ≤ Config.arrivalRoom
    ∧ s.sweep.restoreList.length ≤ Config.restoreRoom ∧ s.sweep.restoreList.Nodup

/-- R49: every record the journal holds, oldest first. -/
def Journal.records (j : Journal) : List ChangeRecord := j.judged.map Judged.record ++ j.waiting

/-- R48, R49: the journal holds at most 384 records, whose sequence numbers run consecutively up to the one
before the next. -/
def State.journalInOrder (s : State) : Prop :=
  s.journal.occupancy ≤ Config.journalRoom
    ∧ s.journal.records.map ChangeRecord.seq
      = (List.range s.journal.occupancy).map fun k =>
          s.journal.nextSeq - BitVec.ofNat 16 s.journal.occupancy + BitVec.ofNat 16 k

/-! ### Steps and states of the blocks -/

/-- R26, R35, R36: DRAIN_WAIT waits for a full posted-write buffer; in HOLD, which holds a write to a landing
slot, and in READ_OUT, which holds a read, the buffer is empty. -/
def State.passConsistent (s : State) : Prop :=
  match s.pass.step with
  | .idle => True
  | .drainWait a => s.pass.buffer.isSome = true ∧ ∀ ch w, a.cls = .landing ch w → w ≤ 3
  | .hold a _ =>
    s.pass.buffer = none ∧ (∃ data lanes, a.op = .write data lanes) ∧ ∃ ch, a.cls = .landing ch 3
  | .readOut a => s.pass.buffer = none ∧ a.op = .read

/-- R165, R168: the report writer and the summary writer are never both in WRITING. -/
def State.oneWriter (s : State) : Prop := ¬(s.report.writer.isWriting = true ∧ s.report.summary.isWriting = true)

/-- R56: a drift sweep is owed or running only in an overrun episode, and in QUIET the journal OVERRUN flag is
set exactly while one is. -/
def State.overrunAgrees (s : State) : Prop :=
  (s.journal.demand ≠ .none → s.journal.overrun.isSome = true)
    ∧ ((s.window.state = .quiet ∨ s.window.state = .noLayout) →
      (s.journal.overrun.isSome = true ↔ s.journal.demand ≠ .none))

/-- R118: the current job is a close sweep. -/
def Job.isCloseSweep : Job → Bool
  | .closeSweep _ _ _ _ => true
  | .none | .capture _ _ | .driftSweep _ _ | .restore _ _ _ => false

/-- Section 6.1, R99, R111, R112, R125: the window is NO_LAYOUT exactly before the first layout, and SWEEPING
exactly while a close sweep runs. -/
def State.windowAgrees (s : State) : Prop :=
  (s.window.state = .noLayout ↔ s.layout = none)
    ∧ (s.window.state = .sweeping ↔ s.sweep.job.isCloseSweep = true)

/-- R141, R142, R143: the steady timer runs only in VERIFYING with no circuit PENDING, and in CONCLUDED no
circuit is PENDING. -/
def State.verdictsSettled (s : State) : Prop :=
  (s.verdict.steady.running = true → s.window.state = .verifying ∧ s.count .pending = 0)
    ∧ (s.window.state = .concluded → s.count .pending = 0)

/-- The window's and the Trace Monitor's timers run only in their window states (R79, R106, R109). -/
def State.timersAgree (s : State) : Prop :=
  (s.window.state ≠ .opened → s.window.deadline = .stopped)
    ∧ (s.window.state ≠ .settling → s.window.settle = .stopped)
    ∧ (s.window.state ≠ .verifying → ∀ ch, (s.evidenceOf ch).silence = .stopped)
    ∧ (s.window.state ≠ .verifying → s.verdict.limit.running = false)

/-! ### Commands and what they act on -/

/-- The command has a master present a write of these operands. -/
def presentsWrite (i : Instr) (addr : WordAddr) (data : Word) (lanes : Lanes) (m : Master) : Prop :=
  i = .connectionWrite addr data lanes m ∨ i = .landingTagWrite addr data lanes m
    ∨ (i = .closingWord addr data m ∧ lanes = 0xF) ∨ i = .consumerWordWrite addr data lanes m
    ∨ i = .upstreamWrite addr data lanes m ∨ i = .lateErrorAccess addr (.write data lanes) m

/-- The command has a master present a read. -/
def presentsRead (i : Instr) (addr : WordAddr) (m : Master) : Prop :=
  i = .upstreamRead addr m ∨ i = .lateErrorAccess addr .read m

/-- The command has a master present this access, a write carrying at least one lane. -/
def presents (i : Instr) (addr : WordAddr) (op : AccessOp) (m : Master) : Prop :=
  match op with
  | .read => presentsRead i addr m
  | .write data lanes => lanes ≠ 0 ∧ presentsWrite i addr data lanes m

/-- The part is out of reset, the upstream group is free, the posted-write buffer is empty and master `m` has
no late-error mark: an access that `m` presents is taken at once (R29, R31). -/
def State.takesAtOnce (s : State) (m : Master) : Prop :=
  s.inReset = false ∧ s.pass.step = .idle ∧ s.pass.buffer = none ∧ s.isLate m = false

/-- R29: the Pass Path with this write placed in the posted-write buffer and acknowledged to its master. -/
def PassPath.post (p : PassPath) (w : Posted) : PassPath :=
  { p with buffer := some w, step := .idle, answer := some ⟨w.master, .acknowledge⟩ }

/-- The command can end with a write accepted: it presents an access, or it empties the posted-write buffer, which takes
the access that waits in DRAIN_WAIT (R29, R30, R43). -/
def mayAccept (i : Instr) : Prop :=
  (∃ addr data lanes m, presentsWrite i addr data lanes m)
    ∨ (∃ addr m, presentsRead i addr m) ∨ i = .forwardedWriteComplete
    ∨ i = .downstreamTimeout ∨ i = .downstreamErrorCompletion

/-- The command is the failure of the access in progress, by the limit or by memory's error signal (R42). -/
def failsAccess (i : Instr) : Prop := i = .downstreamTimeout ∨ i = .downstreamErrorCompletion

/-- The access in progress is this requester's, with this request. -/
def State.inProgress (s : State) (who : Requester) (r : Request) : Prop :=
  s.inReset = false ∧ ∃ n, s.arbiter.port = some ⟨who, r, n⟩

/-- The directive in hand has passed R155 and is of this kind. -/
def State.inHand (s : State) (k : DirectiveKind) : Prop :=
  s.inReset = false ∧ s.directive.step = .checked ∧ chainKind s.directive.chain = some k

/-- The command that executes a directive of this kind. -/
def commandOf : DirectiveKind → Instr
  | .layout => .layout | .setPolicy => .setPolicy | .load => .load | .drop => .drop
  | .openWindow => .openWindow | .mark => .mark | .close => .close | .abandon => .abandon
  | .accept => .accept | .recheck => .recheck | .restore => .restore

/-- The answer of the first check of its kind that the directive in hand fails. -/
def refusalOf : DirectiveKind → State → Option DirectiveAnswer
  | .layout => State.layoutRefusal
  | .setPolicy => State.policyRefusal
  | .load => State.loadRefusal
  | .drop => State.dropRefusal
  | .openWindow => State.openRefusal
  | .mark => State.markRefusal
  | .close => fun s => s.refusedUnless .opened
  | .abandon => State.abandonRefusal
  | .accept => fun s => s.refusedUnless .concluded
  | .recheck => fun s => s.refusedUnless .concluded
  | .restore => State.restoreRefusal

/-- R172, R34: the fields of the LOAD in hand stand at these bits of its two slots: tag octet `k` in word 2 + k / 4, in the
lane that BORD gives it, and entry `p`, up to the count, in half p mod 2 of word 7 or of word p / 2 of the continuation
slot. -/
def State.loadPlaced (s : State) : Prop :=
  let f := s.loadInHand
  let w (k : Nat) : Word := chainWord s.directive.chain 0 k
  f.circuit = ((w 1).extractLsb' 0 16).toNat ∧ f.channel = ((w 1).extractLsb' 16 16).toNat
    ∧ (∀ k : Fin 12,
        let lane := if s.straps.bord then 3 - k.val % 4 else k.val % 4
        f.tag[k] = (w (2 + k.val / 4)).extractLsb' (8 * lane) 8)
    ∧ f.persistence = ((w 5).extractLsb' 0 8).toNat ∧ f.shift = ((w 5).extractLsb' 8 8).toNat
    ∧ f.tolerance = ((w 5).extractLsb' 16 16).toNat
    ∧ f.floor = ((w 6).extractLsb' 0 16).toInt ∧ f.entryCount = ((w 6).extractLsb' 16 8).toNat
    ∧ (f.entryCount ≤ 6 → f.entries = (List.range f.entryCount).map fun p =>
        let word := if p < 2 then w 7 else chainWord s.directive.chain 1 (p / 2)
        (word.extractLsb' (16 * (p % 2)) 16).toNat)

/-- R120: in the event from `s` to `t` the engine comes to the first access of a job of circuit `k`, which writes this word or
reads. It requests it, or holds it while the posted-write buffer holds a write to its address. -/
def State.firstAccessMade (s t : State) (k : Nat) (word : Option Word) : Prop :=
  s.arbiter.sweep = none →
    let first := s.connAddr ((t.circuit k).entries.getD 0 0)
    let waits := s.pass.buffer.any fun b => decide (b.addr = first)
    t.arbiter.sweep = (if waits then none else some { addr := first, write := word.map (·, 0xF) })
      ∧ t.sweep.held = if waits then some (first, word) else none

/-- R119, R126, R130: in the event from `s` to `t` a job ends at circuit `c`, whose record its end leaves as `last`, and the
first waiting job starts, in the order CAPTURE, DRIFT_SWEEP, RESTORE, with its request cleared; the other requests keep
waiting. `list` is the restore list as the job's end left it. A drift sweep starts at the first SETTLED circuit; with none
it ends at once (R127), and the restore starts. With none waiting the job is NONE. No other circuit changes, but that the
one whose restore starts becomes RESTORING. -/
def State.waitingJobStarts (s t : State) (c : Nat) (last : Circuit) (list : List Nat) : Prop :=
  let mid (j : Nat) : Circuit := if j = c then last else s.circuit j
  let circuitsStay : Prop := ∀ j, t.circuit j = mid j
  let restores : Prop :=
    (∀ k rest, list = k :: rest →
      t.circuit k = { mid k with state := .restoring }
      ∧ ∀ o, (mid k).state = OutsideState.toState o →
          t.sweep = { s.sweep with
            job := .restore k 1 o, held := t.sweep.held, driftRequest := false, restoreList := rest }
          ∧ s.firstAccessMade t k (some (((mid k).baseline.getD []).getD 0 0)))
    ∧ (list = [] →
        t.sweep = { s.sweep with job := .none, held := none, driftRequest := false, restoreList := [] } ∧ circuitsStay)
  (∀ j, list.head? ≠ some j → t.circuit j = mid j)
    ∧ (∀ k, s.sweep.captureRequest = some k →
      t.sweep = { s.sweep with
        job := .capture k 1, held := t.sweep.held, captureRequest := none, restoreList := list }
      ∧ t.journal = s.journal ∧ circuitsStay ∧ s.firstAccessMade t k none)
    ∧ (s.sweep.captureRequest = none → s.sweep.driftRequest = true →
        (∀ n, n < 512 → (t.circuit n).state = .settled → (∀ k, k < n → (t.circuit k).state ≠ .settled) →
          t.sweep = { s.sweep with
            job := .driftSweep n 1, held := t.sweep.held, driftRequest := false, restoreList := list }
          ∧ t.journal = { s.journal with
              demand := if s.journal.demand = .owed then .running else s.journal.demand }
          ∧ circuitsStay ∧ s.firstAccessMade t n none)
        ∧ ((∀ k, k < 512 → (t.circuit k).state ≠ .settled) → s.journal.demand = .owed →
          t.journal = { s.journal with demand := .none, overrun := none } ∧ restores))
    ∧ (s.sweep.captureRequest = none → s.sweep.driftRequest = false → t.journal = s.journal ∧ restores)

end Sys2Proof.Machine
end

