-- ==== Sys2Proof/WellFormed.lean ====
section
/-!
DEFINITION. What makes a command one that the part can be given.
Section 2.1 gives every upstream write a lane set of 1 to 4 byte lanes; every other operand of a command
lies in its range by its type.
-/

namespace Sys2Proof

/-- A write carries at least one byte lane (section 2.1). -/
def AccessOp.wellFormed : AccessOp → Bool
  | .read => true
  | .write _ lanes => lanes != 0

/-- The command is one the part can be given. -/
def Instr.wellFormed : Instr → Bool
  | .connectionWrite _ data lanes _ => (AccessOp.write data lanes).wellFormed
  | .landingTagWrite _ data lanes _ => (AccessOp.write data lanes).wellFormed
  | .consumerWordWrite _ data lanes _ => (AccessOp.write data lanes).wellFormed
  | .upstreamWrite _ data lanes _ => (AccessOp.write data lanes).wellFormed
  | .lateErrorAccess _ op _ => op.wellFormed
  | .reset | .resetEnd _ _ | .closingWord _ _ _ | .holdLimitExpiry | .upstreamRead _ _ | .portGrant
  | .forwardedWriteComplete | .forwardedReadComplete _ | .downstreamTimeout
  | .downstreamErrorCompletion | .classify | .arrivalConsumption | .silenceExpiry _ | .layout
  | .setPolicy | .load | .drop | .openWindow | .mark | .close | .abandon | .accept | .recheck
  | .restore | .deadlineExpiry | .settleExpiry | .steadyExpiry | .verifyLimitExpiry
  | .captureReadComplete _ | .closeSweepReadComplete _ | .driftSweepReadComplete _
  | .restoreWriteComplete | .directiveFetchReadComplete _ | .directiveCompletionWriteEnd
  | .reportWriteStart | .reportWordComplete | .reportHoldOffExpiry | .summaryRewriteStart
  | .summaryWordComplete | .summaryHoldOffExpiry | .attnPulseEnd => true

end Sys2Proof
end

