-- ==== Sys2Proof/Certificates/Slice0/Obligations.lean ====
section
/-!
DEFINITION. The statements for the provers, block by block. OBLIGATIONS.json gives each one's title, the rules it
formalises and its tier. An event ends with `State.endEvent`, the start of a summary rewrite that has become due (R168),
which `Obligations.SummaryRewritten` states; the other statements give the state it is applied to.
-/

open Sys2Proof Sys2Proof.Machine

/-! ### The queue, the clock and reset -/

/-- A step with a command at the front of the queue is that command, carried out with the queue's rest. -/
def Obligations.StepTakesFrontCommand : Prop :=
  ∀ (c : Instr) (rest : List Instr) (s : State),
    step { s with pending := c :: rest } = exec c { s with pending := rest }

/-- Every well-formed command answers a next state with the queue untouched, in every state of the part: that a command
whose event cannot take place goes on is the model's choice (log entry 1). A write that carries no byte lane, which
section 2.1 does not give, is refused by name (log entry 7). -/
def Obligations.CommandsCompleteUnlessIllFormed : Prop :=
  ∀ (c : Instr) (s : State),
    (c.wellFormed = true → ∃ t, exec c s = .next t ∧ t.pending = s.pending)
    ∧ (c.wellFormed = false → exec c s = .refused .emptyLaneSet)

/-- With an empty queue a step is one reference clock period, the model's choice of log entry 5: the counts kept
in periods move, and the last of 25 000 periods is the 1 ms tick, at which every timer set in seconds or
milliseconds falls by 1 ms (section 0.6). -/
def Obligations.EmptyQueuePassesPeriod : Prop :=
  ∀ s : State, s.pending = [] → s.inReset = false →
    ∃ t, step s = .next t
      ∧ (∀ a n, s.pass.step = .hold a n → t.pass.step = .hold a (min 500 (n + 1)))
      ∧ (∀ who r n, s.arbiter.port = some ⟨who, r, n⟩ → t.arbiter.port = some ⟨who, r, min 100 (n + 1)⟩)
      ∧ (∀ n, s.report.attn = some n → t.report.attn = some (n - 1))
      ∧ t.store = s.store ∧ t.journal = s.journal ∧ t.sweep = s.sweep ∧ t.directive = s.directive
      ∧ t.layout = s.layout ∧ t.trace.arrivals = s.trace.arrivals
      ∧ (s.prescale + 1 < 25000 →
          t = { s with prescale := s.prescale + 1, pass := t.pass, arbiter := t.arbiter, report := t.report })
      ∧ (25000 ≤ s.prescale + 1 → t.prescale = 0
          ∧ (∀ n, s.window.deadline = .running n → t.window.deadline = .running (n - 1))
          ∧ (∀ n, s.window.settle = .running n → t.window.settle = .running (n - 1))
          ∧ (∀ ch n, (s.evidenceOf ch).silence = .running n → (t.evidenceOf ch).silence = .running (n - 1))
          ∧ t.verdict.limit.remaining
              = s.verdict.limit.remaining - (if s.verdict.limit.running then 1 else 0)
          ∧ t.verdict.steady.remaining
              = s.verdict.steady.remaining - (if s.verdict.steady.running then 1 else 0)
          ∧ (∀ n, s.report.writer = .holdOff n → t.report.writer = .holdOff (n - 1))
          ∧ (∀ n, s.report.summary = .holdOff n → t.report.summary = .holdOff (n - 1)))

/-- R174, R175: a reset puts every item of the part at its reset value, the straps keeping their sampled levels; while
it lasts no access presented, no completion downstream, no step of a block and no clock period changes anything; its
end samples DRING3 … DRING0 and BORD and begins from the reset state. RESET_END with no reset lasting changes nothing
(log entry 15). -/
def Obligations.ResetHoldsPart : Prop :=
  ∀ s : State,
    exec .reset s = .next { State.reset with pending := s.pending, straps := s.straps, inReset := true }
    ∧ (s.inReset = true →
        (∀ c : Instr, c.wellFormed = true → c ≠ .reset → (∀ d b, c ≠ .resetEnd d b) → exec c s = .next s)
        ∧ (s.pending = [] → step s = .next s)
        ∧ ∀ (dring : BitVec 4) (bord : Bool), ∃ t, exec (.resetEnd dring bord) s = .next t
            ∧ t = { State.reset with pending := s.pending, straps := { dring, bord } }
            ∧ t.inReset = false ∧ t.ringBase = dring.toNat * (16 * 1024 * 1024))
    ∧ (s.inReset = false → ∀ dring bord, exec (.resetEnd dring bord) s = .next s)

/-- The reset values the manual gives, item by item and field by field (R1, R10, R11, R12, R16, R26, R41, R46, R65, R66,
R70, R76, R97, R118, R133, R151, R163), with no access requested, in progress or answered (R175). The straps and the
held settle time are the model's (log entries 2 and 3) and are not stated. -/
def Obligations.ResetValues : Prop :=
  let s := State.reset
  (∀ c, s.circuit c =
      { state := .empty, prior := none, channel := none, tag := Vector.replicate 12 0, persistence := 1, tolerance := 0
        floor := -5000, shift := 0, entries := [], baseline := none, swept := none, sweepResult := none
        reference := none, entryCondition := none, undeclared := false, redeclared := false, changeCount := 0
        fenceHits := 0, cause := none, verdictChanges := 0, restoreOutcome := none, suspect := false })
    ∧ (∀ i, s.mapEntry i = { owner := none, fenced := false }) ∧ (∀ ch, s.boundTo ch = none)
    ∧ s.store.mode = .watch
    ∧ (∀ st, s.count st = if st = .empty then 512 else 0)
    ∧ s.layout = none ∧ s.pass.buffer = none ∧ s.pass.step = .idle
    ∧ (∀ ch, Table.get zeroTag s.pass.assembly ch = Vector.replicate 12 0) ∧ (∀ m, s.isLate m = false)
    ∧ s.pass.answer = none
    ∧ s.arbiter = { starvation := 0, directive := none, sweep := none, report := none, port := none
                    fault := { addr := 0, kind := .none, master := 0 } }
    ∧ s.journal = { judged := [], waiting := [], nextSeq := 0, overrun := none, demand := .none }
    ∧ s.trace.arrivals = [] ∧ s.trace.silenceLimit = 60000
    ∧ (∀ ch, s.evidenceOf ch = { candidate := none, run := 0, accepted := none, power := none, dark := false,
                                 gap := false, silence := .stopped })
    ∧ s.window.state = .noLayout ∧ s.window.number = 0 ∧ s.window.overrun = false ∧ s.window.overtime = false
    ∧ s.window.deadline = .stopped ∧ s.window.settle = .stopped ∧ s.window.verifyLimit = 7200
    ∧ s.window.steadyTime = 0 ∧ (∀ c, Table.get false s.window.workSet c = false)
    ∧ s.sweep = { job := .none, held := none, captureRequest := none, driftRequest := false, restoreList := [] }
    ∧ s.verdict = { limit := ⟨false, 0⟩, steady := ⟨false, 0⟩ }
    ∧ s.directive = { nextSlot := 0, ready := [], step := .idle, chain := [] }
    ∧ s.report = { producer := 0, consumer := 0, rejected := false, owed := [], windowOwed := false,
                   lastReported := 511, writer := .idle, generation := 0, wanted := false, summary := .idle,
                   enables := 0x1FF, pending := 0, unseen := 0, raised := 0, attn := none, assured := false }

/-! ### The Pass Path -/

/-- R29, R32, R47, R48, R51: a connection write taken with room in the journal is acknowledged; fenced, it does not
enter the buffer, and otherwise it does; either way the journal stores its record, with zero octets in the lanes it
does not carry, and nothing else of the part changes but the summary mark and, at the 192nd record, the cause
JOURNAL_HALF. R52, R55: a connection write taken with the journal full is acknowledged and fenced or forwarded all
the same; its capture is lost, which sets the journal OVERRUN flag with the phase of the episode's first loss and
raises JOURNAL_OVERRUN once, sets the window flag OVERRUN in OPEN to CONCLUDED, and moves the drift-sweep demand.
The records and the next sequence number stay. -/
def Obligations.ConnectionWriteAccepted : Prop :=
  (∀ (i : Instr) (addr : WordAddr) (data : Word) (lanes : Lanes) (m : Master) (s : State) (index : Nat),
      presentsWrite i addr data lanes m → lanes ≠ 0 → s.takesAtOnce m →
      s.addrClass (4 * addr.toNat) = .connection index → s.journal.occupancy < 384 →
      ∃ t : State, ∃ r, exec i s = .next t.endEvent
        ∧ t = { s with pass := t.pass, journal := t.journal, report := t.report }
        ∧ t.pass =
            (if (s.mapEntry index).fenced then { s.pass with answer := some ⟨m, .acknowledge⟩ }
             else s.pass.post { addr := 4 * addr.toNat, data, lanes, master := m, cls := .connection index })
        ∧ t.journal = { s.journal with waiting := s.journal.waiting ++ [r], nextSeq := s.journal.nextSeq + 1 }
        ∧ r.seq = s.journal.nextSeq ∧ r.index = index ∧ r.lanes = lanes ∧ r.master = m
        ∧ r.fenced = (s.mapEntry index).fenced
        ∧ r.phase = (if s.window.state = .opened then .opened
                     else if s.window.state = .quiet ∨ s.window.state = .noLayout then .outside else .closed)
        ∧ (∀ l, l < 4 → laneOctet r.value l = if lanes.getLsbD l then laneOctet data l else 0)
        ∧ t.report =
            (if s.journal.occupancy + 1 = 192 then s.wantSummary.raise .journalHalf else s.wantSummary).report)
  ∧ (∀ (i : Instr) (addr : WordAddr) (data : Word) (lanes : Lanes) (m : Master) (s : State) (index : Nat),
      presentsWrite i addr data lanes m → lanes ≠ 0 → s.takesAtOnce m →
      s.addrClass (4 * addr.toNat) = .connection index → s.journal.occupancy = 384 → s.window.state ≠ .noLayout →
      ∃ t : State, exec i s = .next t.endEvent
        ∧ t = { s with pass := t.pass, journal := t.journal, window := t.window, report := t.report }
        ∧ t.pass =
            (if (s.mapEntry index).fenced then { s.pass with answer := some ⟨m, .acknowledge⟩ }
             else s.pass.post { addr := 4 * addr.toNat, data, lanes, master := m, cls := .connection index })
        ∧ t.journal = { s.journal with
            overrun := some (s.journal.overrun.getD
              (if s.window.state = .opened then .opened else if s.window.state = .quiet then .outside else .closed))
            demand :=
              if s.journal.demand = .running ∨ s.journal.demand = .runningAndOwed then .runningAndOwed
              else if s.window.state = .opened ∨ s.window.state = .settling then s.journal.demand
              else .owed }
        ∧ t.window = { s.window with overrun := s.window.overrun || decide (s.window.state ≠ .quiet) }
        ∧ t.report.pending =
            (if s.journal.overrun = none then (s.raise .journalOverrun).report.pending else s.report.pending)
        ∧ t.report.windowOwed =
            (s.report.windowOwed || (decide (s.window.state ≠ .quiet) && !s.window.overrun)))

/-- R34: a framer master's write to word 0, 1 or 2 of a landing slot replaces, lane by lane as BORD maps it,
octets of that channel's tag assembly and of no other, and is posted and acknowledged. -/
def Obligations.LandingTagAssembled : Prop :=
  ∀ (i : Instr) (addr : WordAddr) (data : Word) (lanes : Lanes) (m : Master) (s : State) (ch w : Nat),
    presentsWrite i addr data lanes m → lanes ≠ 0 → s.takesAtOnce m →
    s.addrClass (4 * addr.toNat) = .landing ch w → w < 3 → s.isFramer m = true →
    ∃ t : State, exec i s = .next t.endEvent
      ∧ t = { s with pass := t.pass }
      ∧ t.pass = { s.pass.post { addr := 4 * addr.toNat, data, lanes, master := m, cls := .landing ch w } with
                   assembly := t.pass.assembly }
      ∧ ∀ (ch' : Nat) (k : Fin 12),
          let lane := if s.straps.bord then 3 - k.val % 4 else k.val % 4
          (Table.get zeroTag t.pass.assembly ch')[k]
            = if ch' = ch ∧ k.val / 4 = w ∧ lanes.getLsbD lane = true then laneOctet data lane
              else (Table.get zeroTag s.pass.assembly ch')[k]

/-- R29, R34, R35, R37, R38: a write whose class calls for no hand-off at acceptance is posted and acknowledged and
changes nothing else: one of class OTHER, ATTENTION WORD or DIRECTIVE, a landing write of a master that is no
framer, a framer's write to word 3 that lacks a lane, and a consumer word write that lacks an index lane. -/
def Obligations.OtherWritesForwardedOnly : Prop :=
  ∀ (i : Instr) (addr : WordAddr) (data : Word) (lanes : Lanes) (m : Master) (s : State),
    presentsWrite i addr data lanes m → lanes ≠ 0 → s.takesAtOnce m →
    (s.addrClass (4 * addr.toNat) = .other ∨ s.addrClass (4 * addr.toNat) = .attentionWord
      ∨ (∃ slot w, s.addrClass (4 * addr.toNat) = .directive slot w)
      ∨ (∃ ch w, s.addrClass (4 * addr.toNat) = .landing ch w ∧ s.isFramer m = false)
      ∨ (∃ ch, s.addrClass (4 * addr.toNat) = .landing ch 3 ∧ lanes ≠ 0xF)
      ∨ (s.addrClass (4 * addr.toNat) = .consumerWord
          ∧ (lanes.getLsbD 0 = false ∨ lanes.getLsbD 1 = false))) →
    ∃ t : State, exec i s = .next t.endEvent
      ∧ t = { s with pass := s.pass.post { addr := 4 * addr.toNat, data, lanes, master := m,
                                           cls := s.addrClass (4 * addr.toNat) } }

/-- R35: a framer master's four-lane write to word 3 of a slot meets the arrival queue. With room its arrival,
carrying the channel's assembled tag, the tag state and the reading as written, is pushed onto the tail and the
write is posted; with the queue full it is not accepted and enters HOLD with the hold time at 0. R36, R75: at the
hold limit the closing word is posted and acknowledged, its arrival is discarded, and the channel's gap flag, bound
or not, is set; no other evidence changes. -/
def Obligations.ClosingWordTakenOrHeld : Prop :=
  (∀ (i : Instr) (addr : WordAddr) (data : Word) (m : Master) (s : State) (ch : Nat),
      presentsWrite i addr data 0xF m → s.takesAtOnce m →
      s.addrClass (4 * addr.toNat) = .landing ch 3 → s.isFramer m = true →
      ∃ t : State, exec i s = .next t.endEvent
        ∧ (s.trace.arrivals.length < 32 →
            t = { s with
              pass := s.pass.post { addr := 4 * addr.toNat, data, lanes := 0xF, master := m, cls := .landing ch 3 }
              trace := { s.trace with arrivals := s.trace.arrivals ++
                [{ channel := ch, tag := Table.get zeroTag s.pass.assembly ch,
                   tagState := if data.extractLsb' 16 8 = 1 then .valid else .noFrame,
                   power := (data.extractLsb' 0 16).toInt }] }
              report := { s.report with wanted := true } })
        ∧ (32 ≤ s.trace.arrivals.length →
            t = { s with pass := { s.pass with
              step := .hold { addr := 4 * addr.toNat, op := .write data 0xF, master := m, cls := .landing ch 3 } 0
              answer := none } }))
  ∧ (∀ (s : State) (a : Access) (n : Nat) (data : Word) (lanes : Lanes) (ch w : Nat),
      s.inReset = false → s.pass.step = .hold a n → a.op = .write data lanes → a.cls = .landing ch w →
      ∃ t : State, exec .holdLimitExpiry s = .next t.endEvent
        ∧ t = { s with pass := t.pass, trace := { s.trace with evidence := t.trace.evidence } }
        ∧ t.pass = s.pass.post { addr := a.addr, data, lanes, master := a.master, cls := a.cls }
        ∧ ∀ ch', t.evidenceOf ch' = if ch' = ch then { s.evidenceOf ch with gap := true } else s.evidenceOf ch')

/-- R38, R164: a consumer word write that carries both index lanes is posted, and its index v is taken if
(producer − v) mod 65536, plus 1 with a record write in progress, is at most the ring's size; otherwise it is
rejected. That a record a LAYOUT has overtaken counts as one in progress is the model's reading (log entry 13). -/
def Obligations.ConsumerIndexTakenOrRejected : Prop :=
  ∀ (i : Instr) (addr : WordAddr) (data : Word) (lanes : Lanes) (m : Master) (s : State) (l : Layout),
    presentsWrite i addr data lanes m → s.takesAtOnce m → s.layout = some l →
    s.addrClass (4 * addr.toNat) = .consumerWord → lanes.getLsbD 0 = true → lanes.getLsbD 1 = true →
    let v : BitVec 16 := data.extractLsb' 0 16
    let figure := (s.report.producer.toNat + 65536 - v.toNat) % 65536
      + (if s.report.writer.isWriting then 1 else 0)
    ∃ t : State, exec i s = .next t.endEvent
      ∧ t = { s with pass := t.pass, report := t.report }
      ∧ t.pass = s.pass.post { addr := 4 * addr.toNat, data, lanes, master := m, cls := .consumerWord }
      ∧ t.report =
          (if figure ≤ l.reportSize then
            { s.report with
              consumer := v, rejected := false
              wanted := s.report.wanted || decide (s.report.consumer ≠ v) || s.report.rejected }
           else { s.report with rejected := true, wanted := s.report.wanted || !s.report.rejected })

/-- R27: an octet address is of class DIRECTIVE within the 2 KiB ring at its strapped base, with its slot and word; under a
layout, of class CONNECTION within the table, with its index, LANDING within the landing area, with its channel and slot
word, CONSUMER WORD at summary base + 52 and ATTENTION WORD at summary base + 8; and OTHER anywhere else, and everywhere
outside the ring before a layout. A layout in which two regions met, which LAYOUT refuses, is read in that order.
R29, R31, R44: an access presented by a master with no late-error mark waits in DRAIN_WAIT while the posted-write
buffer holds a write, a read or a write alike; with the buffer empty a read enters READ_OUT. An access of a master
whose mark is set is ended with the error response without being taken, whatever its class and whether or not the
buffer is empty; that master's mark clears and no other. Nothing else changes. -/
def Obligations.AccessWaitsOrEndsLate : Prop :=
  (∀ (i : Instr) (addr : WordAddr) (op : AccessOp) (m : Master) (s : State),
    presents i addr op m → s.inReset = false → s.pass.step = .idle →
    let a : Access := { addr := 4 * addr.toNat, op, master := m, cls := s.addrClass (4 * addr.toNat) }
    (s.isLate m = false → s.pass.buffer.isSome = true →
      exec i s = .next (State.endEvent { s with pass := { s.pass with step := .drainWait a, answer := none } }))
    ∧ (s.isLate m = false → s.pass.buffer = none → op = .read →
      exec i s = .next (State.endEvent { s with pass := { s.pass with step := .readOut a, answer := none } }))
    ∧ (s.isLate m = true →
      ∃ t : State, exec i s = .next t.endEvent
        ∧ t = { s with pass := { s.pass with lateMarks := t.pass.lateMarks, answer := some ⟨m, .error⟩ } }
        ∧ ∀ m', t.isLate m' = if m' = m then false else s.isLate m'))
  ∧ ∀ (s : State) (a : Nat),
      let ring := s.straps.dring.toNat * (16 * 1024 * 1024)
      let within (base len : Nat) : Prop := base ≤ a ∧ a < base + len
      (within ring 2048 → s.addrClass a = .directive ((a - ring) / 32) ((a - ring) % 32 / 4))
      ∧ (¬ within ring 2048 → s.layout = none → s.addrClass a = .other)
      ∧ ∀ l, s.layout = some l → ¬ within ring 2048 →
          let table := within l.connBase (4 * l.connCount)
          let landing := within l.landBase (16 * l.channelCount)
          (table → s.addrClass a = .connection ((a - l.connBase) / 4))
          ∧ (¬ table → landing →
              s.addrClass a = .landing ((a - l.landBase) / 16) ((a - l.landBase) % 16 / 4))
          ∧ (¬ table → ¬ landing →
              (a = l.summaryBase + 52 → s.addrClass a = .consumerWord)
              ∧ (a = l.summaryBase + 8 → s.addrClass a = .attentionWord)
              ∧ (a ≠ l.summaryBase + 52 → a ≠ l.summaryBase + 8 → s.addrClass a = .other))

/-- R30, R37: a posted write completes: the port is freed and the buffer empties; a write of class DIRECTIVE to word 0
whose lanes carry the ready mark set adds its slot to the ready set. R152, R153, R154: in IDLE or CHAIN_WAIT the mark of
the slot waited for, if it is now in the ready set, leaves it and starts that slot's fetch; in every other step, or
without that mark, the step stays. With this, whatever the unit's step: R31, R44: a read that waited in DRAIN_WAIT goes
out; a waiting access whose master's mark is set is ended with the error response, and the mark clears; R29: any waiting
access, a write among them, is otherwise taken as if it were presented now. Stated where its class is still the one its
address has; log entry 21 is about the other case. R120: a request that the Sweep Engine
holds is made, of the very access it holds; with an access waiting as well, both happen in this event, the request first and
then the access, by the model's reading (log entry 11). -/
def Obligations.ForwardedWriteCompletes : Prop :=
  ∀ (s : State) (r : Request) (p : Posted),
    s.inProgress .passPath r → s.pass.buffer = some p → (s.sweep.held ≠ none → s.arbiter.sweep = none) →
    let d := s.directive
    let slot := (d.nextSlot + d.chain.length) % 64
    let marked (n : Nat) : Bool := Table.get false d.ready n
      || (decide (p.cls = .directive n 0) && p.lanes.getLsbD 1 && p.data.getLsbD 13)
    let fetches : Bool := decide (d.step = .idle ∨ d.step = .chainWait) && marked slot
    let emptied := { s.pass with buffer := none }
    let freed : Arbiter := { s.arbiter with
      port := none
      directive := if fetches then some { addr := s.ringBase + 32 * slot } else s.arbiter.directive
      sweep := s.sweep.held.elim s.arbiter.sweep fun (addr, data) => some { addr, write := data.map (·, 0xF) } }
    let sweep : Sweep := { s.sweep with held := none }
    ∃ ready, (∀ n, Table.get false ready n = (marked n && !(fetches && decide (n = slot))))
      ∧ let directive : DirectiveUnit := { d with ready, step := if fetches then .fetching [] else d.step }
        (s.pass.step = .idle →
            exec .forwardedWriteComplete s = .next (State.endEvent { s with
              pass := emptied, arbiter := freed, sweep, directive }))
        ∧ (∀ a, s.pass.step = .drainWait a → a.op = .read → s.isLate a.master = false →
            exec .forwardedWriteComplete s = .next (State.endEvent { s with
              pass := { emptied with step := .readOut a }, arbiter := freed, sweep, directive }))
        ∧ (∀ a, s.pass.step = .drainWait a → s.isLate a.master = true →
            ∃ marks, (∀ m : Master, Table.get false marks m.toNat = if m = a.master then false else s.isLate m)
              ∧ exec .forwardedWriteComplete s = .next (State.endEvent { s with
                  pass := { emptied with step := .idle, lateMarks := marks, answer := some ⟨a.master, .error⟩ }
                  arbiter := freed, sweep, directive }))
        ∧ (∀ (a : Access) (addr : WordAddr), s.pass.step = .drainWait a →
            a.addr = 4 * addr.toNat → a.cls = s.addrClass a.addr → s.pass.answer = none →
            (∀ data, a.op ≠ .write data 0) →
            exec .forwardedWriteComplete s = exec (.lateErrorAccess addr a.op a.master) { s with
              pass := { emptied with step := .idle }, arbiter := freed, sweep, directive })

/-- R31, R39, R170: a forwarded read completes: its data goes to the master unaltered and the Pass Path returns to
IDLE. Of the attention word it also removes each pending cause that is present in the data and not unseen, and of
any other word nothing. -/
def Obligations.ForwardedReadCompletes : Prop :=
  ∀ (s : State) (r : Request) (a : Access) (data : Word),
    s.inProgress .passPath r → s.pass.buffer = none → s.pass.step = .readOut a →
    ∃ t : State, exec (.forwardedReadComplete data) s = .next t.endEvent
      ∧ t = { s with
          pass := { s.pass with step := .idle, answer := some ⟨a.master, .readData data⟩ }
          arbiter := { s.arbiter with port := none }
          report := { s.report with pending := t.report.pending, wanted := t.report.wanted } }
      ∧ (∀ c : Cause, t.report.pending.getLsbD c.bit
          = (s.report.pending.getLsbD c.bit
              && !(decide (a.cls = .attentionWord) && data.getLsbD c.bit && !s.report.unseen.getLsbD c.bit)))
      ∧ t.report.wanted = (s.report.wanted || decide (t.report.pending ≠ s.report.pending))

/-! ### The Memory Arbiter -/

/-- R40, R41: the free port goes to the Pass Path if it waits and the starvation count is below 8 or no internal
requester waits, and otherwise to the first of Directive Unit, Sweep Engine and Report Unit that waits; the count
rises by one at a grant to the Pass Path that passes over an internal requester, and becomes 0 at any other. -/
def Obligations.PortGrantedByStarvationRule : Prop :=
  ∀ s : State, s.inReset = false → s.arbiter.port = none →
    (∀ r who i, s.passRequest = some r → s.arbiter.internalRequest = some (who, i) → s.arbiter.starvation < 8 →
      exec .portGrant s = .next (State.endEvent { s with arbiter := { s.arbiter with
        port := some ⟨.passPath, r, 0⟩, starvation := s.arbiter.starvation + 1 } }))
    ∧ (∀ r, s.passRequest = some r → s.arbiter.internalRequest = none →
      exec .portGrant s = .next (State.endEvent { s with arbiter := { s.arbiter with
        port := some ⟨.passPath, r, 0⟩, starvation := 0 } }))
    ∧ (∀ i, (s.passRequest = none ∨ 8 ≤ s.arbiter.starvation) →
      (s.arbiter.directive = some i →
        exec .portGrant s = .next (State.endEvent { s with arbiter := { s.arbiter with
          directive := none, port := some ⟨.directive, i, 0⟩, starvation := 0 } }))
      ∧ (s.arbiter.directive = none → s.arbiter.sweep = some i →
        exec .portGrant s = .next (State.endEvent { s with arbiter := { s.arbiter with
          sweep := none, port := some ⟨.sweep, i, 0⟩, starvation := 0 } }))
      ∧ (s.arbiter.directive = none → s.arbiter.sweep = none → s.arbiter.report = some i →
        exec .portGrant s = .next (State.endEvent { s with arbiter := { s.arbiter with
          report := none, port := some ⟨.report, i, 0⟩, starvation := 0 } })))

/-- R42, R43, R46: a forwarded access that fails, at the limit or by memory's error signal, frees the port, writes
the fault record and raises BUS_FAULT. A read is ended to its master with the error response; a posted write
leaves the buffer empty and sets its master's late-error mark and no other. R44: an access of that master waiting in
DRAIN_WAIT is then ended with the error response, its mark clear again; R29, R30: one of another master is taken as if
it were presented now, stated where its class is still the one its address has. R120: a request that the Sweep Engine
holds is made, of the very access it holds; with an access waiting as well, both happen in this event, the request first and
then the access, by the model's reading (log entry 11). -/
def Obligations.ForwardedAccessFails : Prop :=
  ∀ (i : Instr) (s : State) (r : Request), failsAccess i → s.inProgress .passPath r →
    let told := (s.wantSummary.raise .busFault).report
    (∀ a, s.pass.buffer = none → s.pass.step = .readOut a →
      exec i s = .next (State.endEvent { s with
        pass := { s.pass with step := .idle, answer := some ⟨a.master, .error⟩ }
        arbiter := { s.arbiter with port := none, fault := ⟨a.addr, .read, a.master⟩ }
        report := told }))
    ∧ ∀ p, s.pass.buffer = some p → (s.sweep.held ≠ none → s.arbiter.sweep = none) →
        let emptied := { s.pass with buffer := none }
        let freed : Arbiter := { s.arbiter with
          port := none, fault := ⟨p.addr, .write, p.master⟩
          sweep := s.sweep.held.elim s.arbiter.sweep fun (addr, data) => some { addr, write := data.map (·, 0xF) } }
        let sweep : Sweep := { s.sweep with held := none }
        ∃ marks, (∀ m : Master, Table.get false marks m.toNat = if m = p.master then true else s.isLate m)
          ∧ (s.pass.step = .idle →
              exec i s = .next (State.endEvent { s with
                pass := { emptied with lateMarks := marks }, arbiter := freed, sweep, report := told }))
          ∧ (∀ a, s.pass.step = .drainWait a → a.master = p.master →
              ∃ cleared,
                (∀ m : Master, Table.get false cleared m.toNat = if m = p.master then false else s.isLate m)
                ∧ exec i s = .next (State.endEvent { s with
                    pass := { emptied with
                      step := .idle, lateMarks := cleared, answer := some ⟨a.master, .error⟩ }
                    arbiter := freed, sweep, report := told }))
          ∧ (∀ (a : Access) (addr : WordAddr), s.pass.step = .drainWait a →
              a.master ≠ p.master → a.addr = 4 * addr.toNat → a.cls = s.addrClass a.addr →
              s.pass.answer = none → (∀ data, a.op ≠ .write data 0) →
              exec i s = exec (.lateErrorAccess addr a.op a.master) { s with
                pass := { emptied with step := .idle, lateMarks := marks }, arbiter := freed, sweep, report := told })

/-- R42, R45, R46, R158: the first failure of an internal access frees the port and makes the same request again, with
no record and no cause; that this holds of a stopped sweep's read too is the model's reading (log entry 10). The
second writes the fault record with the requester's kind and master 0 and raises
BUS_FAULT, whatever it does to the requester's work. Of a fetch read it discards the slot assembly and answers the
directive's first slot alone with FETCH_FAULT and the number of the word that failed, to advance by one slot. -/
def Obligations.InternalAccessFails : Prop :=
  ∀ (i : Instr) (s : State) (r : Request) (who : Requester), failsAccess i → who ≠ .passPath →
    s.inProgress who r →
    let again := some { r with retry := true }
    (r.retry = false →
      exec i s = .next (State.endEvent { s with arbiter := { s.arbiter with
        port := none
        directive := if who = .directive then again else s.arbiter.directive
        sweep := if who = .sweep then again else s.arbiter.sweep
        report := if who = .report then again else s.arbiter.report } }))
    ∧ (r.retry = true →
      ∃ t : State, exec i s = .next t.endEvent ∧ t.arbiter.port = none
        ∧ t.arbiter.fault.addr = r.addr ∧ t.arbiter.fault.master = 0
        ∧ t.arbiter.fault.kind =
            (match who with
             | .directive => .directive | .sweep => .sweep | .report => .report | .passPath => .none)
        ∧ (s.report.enables.getLsbD 7 = true → t.report.pending.getLsbD 7 = true))
    ∧ ∀ words, r.retry = true → r.stale = false → who = .directive → s.directive.step = .fetching words →
        let first := if s.directive.chain = [] then words.getD 0 0 else chainWord s.directive.chain 0 0
        let w := answerWord first ⟨.fetchFault, words.length⟩
        exec i s = .next (State.endEvent { s with
          arbiter := { s.arbiter with
            port := none, fault := ⟨r.addr, .directive, 0⟩
            directive := some { addr := s.ringBase + 32 * s.directive.nextSlot, write := some (w, 0xF) } }
          directive := { s.directive with step := .completing [(s.directive.nextSlot, w)] 1, chain := [] }
          report := (s.wantSummary.raise .busFault).report })

/-! ### The Change Journal -/

/-- R57, R58: the classifier takes the record at the classify position, finds the owner the entry map now gives,
and appends the record with the classification of the first row that holds to the records that wait to be
reported. -/
def Obligations.RecordClassifiedByRow : Prop :=
  ∀ (s : State) (r : ChangeRecord) (rest : List ChangeRecord),
    s.inReset = false → s.journal.waiting = r :: rest →
    ∃ t : State, ∃ k, exec .classify s = .next t.endEvent
      ∧ t.journal.judged = s.journal.judged ++ [⟨r, k, (s.mapEntry r.index).owner⟩]
      ∧ t.journal.waiting = rest ∧ t.journal.nextSeq = s.journal.nextSeq
      ∧ t.pass = s.pass ∧ t.directive = s.directive ∧ t.layout = s.layout
      ∧ t.trace.arrivals = s.trace.arrivals
      ∧ (∀ i, (t.mapEntry i).owner = (s.mapEntry i).owner)
      ∧ (r.fenced = true → k = .fenced)
      ∧ (r.fenced = false → (s.mapEntry r.index).owner = none → k = .stray)
      ∧ ∀ c, r.fenced = false → (s.mapEntry r.index).owner = some c →
          let st := (s.circuit c).state
          let during := r.phase = .opened ∧ (s.window.state = .opened ∨ s.window.state = .settling)
          (st = .loading ∨ st = .restoring → k = .drift)
          ∧ (during → st = .held ∨ st = .pending →
              k = if (s.circuit c).undeclared then .undeclared else .declared)
          ∧ (during → st = .settled ∨ st = .drifted ∨ st = .faulted → k = .undeclared)
          ∧ (during → st = .confirmed ∨ st = .degraded ∨ st = .broken ∨ st = .silent → k = .drift)
          ∧ (¬ during → k = .drift)

/-- R59, R61: a FENCED record raises its owner's fence hits, makes a CIRCUIT report owed for the owner and raises
FENCE_HIT. A record of row 5 or 6 raises its owner's change count; with the window OPEN, or SETTLING with the settle
timer still running, nothing else but the journal changes. Both counts saturate at 255, and no circuit changes in
anything else. -/
def Obligations.ClassifiedWritesCounted : Prop :=
  ∀ (s : State) (r : ChangeRecord) (rest : List ChangeRecord),
    s.inReset = false → s.journal.waiting = r :: rest →
    (r.fenced = true →
      ∃ t : State, exec .classify s = .next t.endEvent
        ∧ t.store = { s.store with circuits := t.store.circuits }
        ∧ (∀ c, t.circuit c =
            if (s.mapEntry r.index).owner = some c then
              { s.circuit c with fenceHits := min 255 ((s.circuit c).fenceHits + 1) }
            else s.circuit c)
        ∧ (∀ c, (s.mapEntry r.index).owner = some c → Table.get false t.report.owed c = true)
        ∧ (s.report.enables.getLsbD 4 = true → t.report.pending.getLsbD 4 = true))
    ∧ ∀ c, r.fenced = false → r.phase = .opened → (s.mapEntry r.index).owner = some c →
        (s.circuit c).state = .held ∨ (s.circuit c).state = .pending →
        s.window.state = .opened ∨ (s.window.state = .settling ∧ s.window.settle ≠ .expired) →
        ∃ t : State, exec .classify s = .next t.endEvent
          ∧ t = { s with store := { s.store with circuits := t.store.circuits }, journal := t.journal }
          ∧ ∀ c', t.circuit c' =
              if c' = c then { s.circuit c with changeCount := min 255 ((s.circuit c).changeCount + 1) }
              else s.circuit c'

/-- R60: an unfenced record judged as drift acts on its owner by the owner's state: LOADING becomes suspect;
SETTLED and FAULTED become DRIFTED, with the effects of R16 (the state's count moves, a CIRCUIT report is owed, ASSURED
is evaluated, the summary is wanted) and the cause DRIFT; a window circuit's prior state SETTLED or FAULTED
becomes DRIFTED, with the cause DRIFT; a DRIFTED or RESTORING owner is left as it is. No other circuit and no
fenced flag changes. -/
def Obligations.DriftRecordJudged : Prop :=
  ∀ (s : State) (r : ChangeRecord) (rest : List ChangeRecord) (c : Nat),
    s.inReset = false → s.fencesAgree → s.journal.waiting = r :: rest → r.fenced = false →
    (s.mapEntry r.index).owner = some c →
    ¬(r.phase = .opened ∧ (s.window.state = .opened ∨ s.window.state = .settling)) →
    let old := s.circuit c
    let demoted := old.state.inWindow = true ∧ (old.prior = some .settled ∨ old.prior = some .faulted)
    let drifts := old.state = .settled ∨ old.state = .faulted
    ∃ t : State, exec .classify s = .next t.endEvent
      ∧ t = { s with store := t.store, journal := t.journal, report := t.report }
      ∧ (∀ c', c' ≠ c → t.circuit c' = s.circuit c')
      ∧ (∀ i, t.mapEntry i = s.mapEntry i)
      ∧ (old.state = .loading → t.circuit c = { old with suspect := true })
      ∧ (drifts → t.circuit c = { old with state := .drifted } ∧ Table.get false t.report.owed c = true
          ∧ (∀ st, t.count st =
              if st = .drifted then s.count st + 1
              else if st = old.state then s.count st - 1
              else s.count st)
          ∧ t.report.wanted = true
          ∧ t.report.assured = decide (s.window.state = .quiet ∧ t.count .empty < 512
              ∧ t.count .settled = 512 - t.count .empty))
      ∧ (¬ drifts → ∀ st, t.count st = s.count st)
      ∧ (demoted → t.circuit c = { old with prior := some .drifted })
      ∧ (old.state ≠ .loading → ¬ drifts → ¬ demoted → t.circuit c = old)
      ∧ ((drifts ∨ demoted) → t.report.pending = (s.raise .drift).report.pending)
      ∧ (¬ drifts → ¬ demoted → t.report = s.report)

/-- R62: a record of row 7 brings its owner into the window: the prior state is its present one, undeclared yes,
redeclared no, change count 1, and the state HELD in OPEN or PENDING in SETTLING; the reference power and entry
condition stay, and it does not join the work set. Its entries are unfenced when HELD and fenced when PENDING. -/
def Obligations.UndeclaredWriteJoinsWindow : Prop :=
  ∀ (s : State) (r : ChangeRecord) (rest : List ChangeRecord) (c : Nat) (o : OutsideState),
    s.inReset = false → s.entriesAgree → s.journal.waiting = r :: rest → r.fenced = false →
    r.phase = .opened → (s.mapEntry r.index).owner = some c → (s.circuit c).state = o.toState →
    s.window.state = .opened ∨ s.window.state = .settling →
    ∃ t : State, exec .classify s = .next t.endEvent
      ∧ t.circuit c = { s.circuit c with
          prior := some o, undeclared := true, redeclared := false, changeCount := 1
          state := if s.window.state = .opened then .held else .pending }
      ∧ (∀ c', c' ≠ c → t.circuit c' = s.circuit c')
      ∧ (∀ i, i ∈ (s.circuit c).entries →
          t.mapEntry i = { owner := some c, fenced := decide (s.window.state = .settling) })
      ∧ (∀ i, i ∉ (s.circuit c).entries → t.mapEntry i = s.mapEntry i)
      ∧ Table.get false t.report.owed c = true
      ∧ t.window.workSet = s.window.workSet

/-! ### The Trace Monitor -/

/-- R67, R68, R36: an arrival whose channel is unbound leaves the queue and changes no evidence; the room it makes
ends a hold, whose closing word is posted with its own arrival at the tail. R67, R71 to R74, R77, R84 to R88: an arrival
on a bound channel is applied to that channel's evidence: the power step by the class of the reading and the
circuit's smoothing shift, then the tag step by the tag state and the gap flag, then the test against the circuit's
persistence, and, for a VALID arrival of a window circuit in VERIFYING, the silence timer with the full limit; it too
ends a hold. Where no evaluation follows (R82) nothing else changes; EvaluatedInVerifying states the evaluation. -/
def Obligations.ArrivalConsumed : Prop :=
  (∀ (s : State) (a : Arrival) (rest : List Arrival),
      s.inReset = false → s.trace.arrivals = a :: rest → s.boundTo a.channel = none →
      ((∀ h n, s.pass.step ≠ .hold h n) →
        exec .arrivalConsumption s = .next (State.endEvent { s with
          trace := { s.trace with arrivals := rest }, report := { s.report with wanted := true } }))
      ∧ ∀ h n data lanes ch w, s.pass.step = .hold h n → h.op = .write data lanes → h.cls = .landing ch w →
          rest.length < 32 →
          exec .arrivalConsumption s = .next (State.endEvent { s with
            trace := { s.trace with arrivals := rest ++
              [{ channel := ch, tag := Table.get zeroTag s.pass.assembly ch,
                 tagState := if data.extractLsb' 16 8 = 1 then .valid else .noFrame,
                 power := (data.extractLsb' 0 16).toInt }] }
            pass := s.pass.post { addr := h.addr, data, lanes, master := h.master, cls := h.cls }
            report := { s.report with wanted := true } }))
  ∧ (∀ (s : State) (a : Arrival) (rest : List Arrival) (c : Nat),
      s.inReset = false → s.trace.arrivals = a :: rest → s.boundTo a.channel = some c →
      let e := s.evidenceOf a.channel
      let clamped : Int := if a.power < -5000 then -5000 else if 1000 < a.power then 1000 else a.power
      let smoothed : Int := match e.power with
        | none => clamped
        | some p => p + Int.fdiv (clamped - p) (2 ^ (s.circuit c).shift)
      let run : Nat := if e.gap = false ∧ e.candidate = some a.tag then min 15 (e.run + 1) else 1
      let judged := s.window.state = .verifying ∧ (s.circuit c).state.inWindow = true
      ∃ t : State, exec .arrivalConsumption s = .next t.endEvent
        ∧ t.trace = { s.trace with arrivals := t.trace.arrivals, evidence := t.trace.evidence }
        ∧ (∀ ch, ch ≠ a.channel → t.evidenceOf ch = s.evidenceOf ch)
        ∧ t.evidenceOf a.channel =
            { power := if a.power = -32768 then none else if a.power = -32767 then e.power else some smoothed
              dark := if a.power = -32768 then true else if a.power = -32767 then e.dark else false
              candidate := if a.tagState = .valid then some a.tag else none
              run := if a.tagState = .valid then run else 0
              gap := if a.tagState = .valid then false else e.gap
              accepted := if a.tagState = .valid ∧ (s.circuit c).persistence ≤ run then some a.tag else e.accepted
              silence := if a.tagState = .valid ∧ judged then .running s.trace.silenceLimit else e.silence }
        ∧ ((∀ h n, s.pass.step ≠ .hold h n) → t.trace.arrivals = rest ∧ t.pass = s.pass)
        ∧ (∀ h n data lanes ch w, s.pass.step = .hold h n → h.op = .write data lanes → h.cls = .landing ch w →
            rest.length < 32 →
            t.trace.arrivals = rest ++
              [{ channel := ch, tag := Table.get zeroTag s.pass.assembly ch,
                 tagState := if data.extractLsb' 16 8 = 1 then .valid else .noFrame,
                 power := (data.extractLsb' 0 16).toInt }]
            ∧ t.pass = s.pass.post { addr := h.addr, data, lanes, master := h.master, cls := h.cls })
        ∧ (¬ judged →
            t = { s with pass := t.pass, trace := t.trace, report := { s.report with wanted := true } }))

/-- R89: for every shift in 0 … 4 and every smoothed power and reading in −5000 … +1000, the new smoothed power
lies between the two; it falls by at least 1 towards a lower reading; it stalls when the reading is above it by
less than 2^k, and rises when the reading is above it by 2^k or more; and with k = 0 it is the
reading. -/
def Obligations.SmoothingProperties : Prop :=
  ∀ (k : Nat) (old r : Int), k ≤ 4 → -5000 ≤ old → old ≤ 1000 → -5000 ≤ r → r ≤ 1000 →
    let new := smooth k (some old) r
    (old ≤ r → old ≤ new ∧ new ≤ r)
    ∧ (r < old → r ≤ new ∧ new ≤ old - 1)
    ∧ (0 < r - old → r - old < 2 ^ k → new = old)
    ∧ (2 ^ k ≤ r - old → old < new)
    ∧ (k = 0 → new = r)
    ∧ -5000 ≤ new ∧ new ≤ 1000
    ∧ smooth k none r = r

/-! ### The Verdict Unit -/

/-- R94, R138: the rows of an evaluation, in order. With the right tag the power judgement decides: CONFIRMED with MATCH
when either power is absent; else DEGRADED with POWER_LOW below the floor or fallen by more than the tolerance,
DEGRADED with POWER_HIGH risen by more than it, and CONFIRMED with MATCH otherwise, every comparison strict. -/
def Obligations.EvaluationRows : Prop :=
  ∀ (r : Circuit) (e : Evidence),
    (r.state = .broken → r.cause = some .unreadable → newVerdict r e = (.broken, some .unreadable))
    ∧ (¬(r.state = .broken ∧ r.cause = some .unreadable) →
        (e.dark = true → newVerdict r e = (.silent, some .dark))
        ∧ (e.dark = false → e.silence = .expired → newVerdict r e = (.silent, some .noArrivals))
        ∧ (e.dark = false → e.silence ≠ .expired →
            (e.accepted = none → newVerdict r e = (.pending, none))
            ∧ (e.accepted = some (Vector.replicate 12 0) → newVerdict r e = (.silent, some .unequipped))
            ∧ (∀ tag, e.accepted = some tag → tag ≠ Vector.replicate 12 0 → tag ≠ r.tag →
                newVerdict r e = (.broken, some .tagMismatch))
            ∧ (∀ tag, e.accepted = some tag → tag ≠ Vector.replicate 12 0 → tag = r.tag →
                (e.power = none ∨ r.reference = none → newVerdict r e = (.confirmed, some .matched))
                ∧ ∀ s p : Int, e.power = some s → r.reference = some p →
                    newVerdict r e =
                      if s < r.floor ∨ s - p < -(r.tolerance : Int) then (.degraded, some .powerLow)
                      else if (r.tolerance : Int) < s - p then (.degraded, some .powerHigh)
                      else (.confirmed, some .matched))))

/-- R78, R82, R139, R141: a RUNNING silence timer expires in VERIFYING. The timer becomes EXPIRED and the bound
window circuit is evaluated: the same verdict changes nothing; another is taken with its cause, counted, and
reported, and the steady timer starts afresh with no circuit PENDING, or stops. No other circuit or channel changes.
R77, R82, R138, R139, R141: in VERIFYING a VALID arrival on a window circuit's channel restarts the silence timer with
the full limit, and the circuit is evaluated from the evidence the arrival has left, which ArrivalConsumed gives; a
verdict it changes is counted and reported and acts on the steady timer in the same way. -/
def Obligations.EvaluatedInVerifying : Prop :=
  (∀ (s : State) (ch : Fin 512) (c n : Nat),
      s.inReset = false → (s.evidenceOf ch).silence = .running n → s.boundTo ch = some c →
      (s.circuit c).state.inWindow = true → s.window.state = .verifying →
      let e : Evidence := { s.evidenceOf ch with silence := .expired }
      let old := s.circuit c
      let v := newVerdict old e
      ∃ t : State, exec (.silenceExpiry ch) s = .next t.endEvent
        ∧ t.evidenceOf ch = e ∧ (∀ ch', ch' ≠ ch.val → t.evidenceOf ch' = s.evidenceOf ch')
        ∧ (v = (old.state, old.cause) →
            t = { s with trace := { s.trace with evidence := t.trace.evidence } })
        ∧ (v ≠ (old.state, old.cause) →
            t.circuit c = { old with
              state := v.1, cause := v.2, verdictChanges := min 255 (old.verdictChanges + 1) }
            ∧ Table.get false t.report.owed c = true
            ∧ (t.count .pending = 0 → t.verdict.steady = ⟨true, 1000 * s.window.steadyTime⟩)
            ∧ (t.count .pending ≠ 0 → t.verdict.steady = { s.verdict.steady with running := false })
            ∧ t.verdict.limit = s.verdict.limit)
        ∧ (∀ c', c' ≠ c → t.circuit c' = s.circuit c')
        ∧ t.window = s.window ∧ t.journal = s.journal ∧ t.sweep = s.sweep
        ∧ t.trace.arrivals = s.trace.arrivals)
  ∧ (∀ (s : State) (a : Arrival) (rest : List Arrival) (c : Nat),
      s.inReset = false → s.trace.arrivals = a :: rest → s.boundTo a.channel = some c →
      (s.circuit c).state.inWindow = true → s.window.state = .verifying →
      ∃ t : State, exec .arrivalConsumption s = .next t.endEvent
        ∧ (t.evidenceOf a.channel).silence =
            (if a.tagState = .valid then .running s.trace.silenceLimit else (s.evidenceOf a.channel).silence)
        ∧ (let old := s.circuit c
           let v := newVerdict old (t.evidenceOf a.channel)
           (v = (old.state, old.cause) → t.circuit c = old ∧ t.verdict = s.verdict)
           ∧ (v ≠ (old.state, old.cause) →
              t.circuit c = { old with
                state := v.1, cause := v.2, verdictChanges := min 255 (old.verdictChanges + 1) }
              ∧ Table.get false t.report.owed c = true
              ∧ (t.count .pending = 0 → t.verdict.steady = ⟨true, 1000 * s.window.steadyTime⟩)
              ∧ (t.count .pending ≠ 0 → t.verdict.steady = { s.verdict.steady with running := false })
              ∧ t.verdict.limit = s.verdict.limit))
        ∧ (∀ c', c' ≠ c → t.circuit c' = s.circuit c')
        ∧ (∀ ch, ch ≠ a.channel → t.evidenceOf ch = s.evidenceOf ch)
        ∧ ((∀ h n, s.pass.step ≠ .hold h n) → t.trace.arrivals = rest ∧ t.pass = s.pass)
        ∧ t.window = s.window ∧ t.journal = s.journal ∧ t.sweep = s.sweep)

/-- R133, R142, R143, R144: the steady timer or the verify limit expires in VERIFYING and the window concludes: the
expired timer has 0 left, the other keeps what it had, both stop, every silence timer is STOPPED, the window is
CONCLUDED with a WINDOW report owed, and CONCLUDED is raised. A steady expiry leaves every circuit as it is; the
verify limit makes each PENDING circuit SILENT with NO_EVIDENCE, a counted and reported change, and leaves the
others. -/
def Obligations.TimersConcludeWindow : Prop :=
  ∀ s : State, s.inReset = false → s.window.state = .verifying →
    (s.verdict.steady.running = true →
      ∃ t : State, exec .steadyExpiry s = .next t.endEvent
        ∧ t.window = { s.window with state := .concluded } ∧ t.report.windowOwed = true
        ∧ t.verdict = { limit := ⟨false, s.verdict.limit.remaining⟩, steady := ⟨false, 0⟩ }
        ∧ (∀ ch, t.evidenceOf ch = { s.evidenceOf ch with silence := .stopped })
        ∧ t.store = s.store ∧ t.journal = s.journal ∧ t.pass = s.pass ∧ t.sweep = s.sweep
        ∧ (s.report.enables.getLsbD 0 = true → t.report.pending.getLsbD 0 = true))
    ∧ (s.verdict.limit.running = true →
      ∃ t : State, exec .verifyLimitExpiry s = .next t.endEvent
        ∧ t.window = { s.window with state := .concluded } ∧ t.report.windowOwed = true
        ∧ t.verdict = { limit := ⟨false, 0⟩, steady := ⟨false, s.verdict.steady.remaining⟩ }
        ∧ (∀ ch, t.evidenceOf ch = { s.evidenceOf ch with silence := .stopped })
        ∧ (∀ c, c < 512 → (s.circuit c).state = .pending →
            t.circuit c = { s.circuit c with
              state := .silent, cause := some .noEvidence
              verdictChanges := min 255 ((s.circuit c).verdictChanges + 1) }
            ∧ Table.get false t.report.owed c = true)
        ∧ (∀ c, c < 512 → (s.circuit c).state ≠ .pending → t.circuit c = s.circuit c)
        ∧ t.journal = s.journal ∧ t.pass = s.pass ∧ t.sweep = s.sweep
        ∧ (s.report.enables.getLsbD 0 = true → t.report.pending.getLsbD 0 = true))

/-! ### The Window Controller -/

/-- R100, R101, R102, R103: an OPEN that passes its checks is executed as one event: every loaded circuit's reference
power and entry condition are captured from its channel and its part in the last window is cleared; each named circuit
takes its state as prior state and becomes HELD; the work set is exactly the named circuits; the flags clear, the number
and the clamped times are taken, the deadline starts and the window is OPEN. EMPTY circuits and the evidence are not
touched. R100: the first check that fails gives the answer: REFUSED_RANGE for the work count (detail 0) or a circuit
number (its list position), REFUSED_STATE 512 outside QUIET, BUSY 1, 2 or 3 for restores, the drift-sweep demand and the
open backlog, REFUSED_STATE with the number of the first named circuit that is EMPTY. R172: the fields are read from
these bits of words 1 to 3 of the first slot, and the work list, position by position up to the count, from the halves
of its words 4 and 5 and then of words 1 to 7 of each continuation slot, low half first. -/
def Obligations.OpenExecuted : Prop :=
  (∀ s : State, s.inHand .openWindow → s.openRefusal = none →
    let f := openFields s.directive.chain
    ∃ t : State, exec .openWindow s = .next t.endEvent
      ∧ t.window.state = .opened ∧ t.window.number = f.number
      ∧ t.window.overrun = false ∧ t.window.overtime = false
      ∧ t.window.deadline = .running (1000 * max 60 (min 43200 f.deadline))
      ∧ t.window.settle = s.window.settle
      ∧ t.window.settleTime = min 900 f.settle ∧ t.window.verifyLimit = max 30 (min 7200 f.verify)
      ∧ t.window.steadyTime = min 255 f.steady
      ∧ t.trace = { s.trace with silenceLimit := max 100 (min 60000 f.silence) }
      ∧ (∀ c, Table.get false t.window.workSet c = decide (c ∈ f.work))
      ∧ t.report.windowOwed = true
      ∧ (∀ c, c < 512 → (s.circuit c).state ≠ .empty →
          let r := s.circuit c
          let e := r.channel.elim {} s.evidenceOf
          t.circuit c = { r with
            reference := e.power
            entryCondition := some (if e.dark then .bad else match e.accepted with
              | none => .unknown
              | some tag => if tag = r.tag then .good else .bad)
            changeCount := 0, undeclared := false, redeclared := false
            prior := if c ∈ f.work ∧ r.state.outside ≠ none then r.state.outside else r.prior
            state := if c ∈ f.work ∧ r.state.outside ≠ none then .held else r.state })
      ∧ (∀ c, (512 ≤ c ∨ (s.circuit c).state = .empty) → t.circuit c = s.circuit c)
      ∧ (∀ c ∈ f.work, (s.circuit c).state.outside ≠ none → Table.get false t.report.owed c = true)
      ∧ (∀ i, (t.mapEntry i).owner = (s.mapEntry i).owner)
      ∧ t.journal = s.journal ∧ t.sweep = s.sweep ∧ t.verdict = s.verdict ∧ t.pass = s.pass)
  ∧ (∀ s : State, s.window.state ≠ .noLayout →
      let f := openFields s.directive.chain
      let inRange : Prop := f.workCount ≤ 32 ∧ ∀ c ∈ f.work, c < 512
      let restoring : Prop := s.sweep.restoreList ≠ [] ∨ ∃ c p o, s.sweep.job = .restore c p o
      (32 < f.workCount → s.openRefusal = some ⟨.refusedRange, 0⟩)
      ∧ (∀ p, f.workCount ≤ 32 → p < f.work.length → 512 ≤ f.work.getD p 0 →
          (∀ q, q < p → f.work.getD q 0 < 512) → s.openRefusal = some ⟨.refusedRange, p + 1⟩)
      ∧ (inRange →
          (s.window.state ≠ .quiet → s.openRefusal = some ⟨.refusedState, 512⟩)
          ∧ (s.window.state = .quiet →
              (restoring → s.openRefusal = some ⟨.busy, 1⟩)
              ∧ (¬ restoring → s.journal.demand ≠ .none → s.openRefusal = some ⟨.busy, 2⟩)
              ∧ (¬ restoring → s.journal.demand = .none → 0 < s.journal.openBacklog →
                  s.openRefusal = some ⟨.busy, 3⟩)
              ∧ (¬ restoring → s.journal.demand = .none → s.journal.openBacklog = 0 →
                  (∀ p, p < f.work.length → (s.circuit (f.work.getD p 0)).state = .empty →
                    (∀ q, q < p → (s.circuit (f.work.getD q 0)).state ≠ .empty) →
                    s.openRefusal = some ⟨.refusedState, f.work.getD p 0⟩)
                  ∧ ((∀ c ∈ f.work, (s.circuit c).state ≠ .empty) → s.openRefusal = none)))))
  ∧ ∀ chain : List (List Word),
      let f := openFields chain
      let w (k : Nat) : Word := chainWord chain 0 k
      f.number = (w 1).extractLsb' 0 16 ∧ f.workCount = ((w 1).extractLsb' 16 8).toNat
      ∧ f.steady = ((w 1).extractLsb' 24 8).toNat
      ∧ f.deadline = ((w 2).extractLsb' 0 16).toNat ∧ f.settle = ((w 2).extractLsb' 16 16).toNat
      ∧ f.verify = ((w 3).extractLsb' 0 16).toNat ∧ f.silence = ((w 3).extractLsb' 16 16).toNat
      ∧ (f.workCount ≤ 32 → f.work = (List.range f.workCount).map fun p =>
          let word := if p < 4 then w (4 + p / 2) else chainWord chain (1 + (p - 4) / 14) (1 + (p - 4) % 14 / 2)
          (word.extractLsb' (16 * (p % 2)) 16).toNat)

/-- R105: a MARK that passes its checks: a named circuit in SETTLED, DRIFTED or FAULTED takes that as prior state,
has its change count, undeclared and redeclared cleared, and becomes HELD; one already HELD keeps all of these;
every named circuit is in the work set. Reference powers, entry conditions and every other circuit stay. The first
check that fails gives the answer: REFUSED_RANGE for the mark count (detail 0) or a circuit number (its list position),
REFUSED_STATE 512 outside OPEN, REFUSED_STATE with the number of the first named circuit that is EMPTY. R172: the count is
bits 7 to 0 of word 1 of the first slot; the list starts in that word's high half and goes on through words 2 to 7 and then
words 1 to 7 of each continuation slot, low half first. -/
def Obligations.MarkExecuted : Prop :=
  (∀ s : State, s.inHand .mark → s.markRefusal = none →
    let named := markList s.directive.chain
    ∃ t : State, exec .mark s = .next t.endEvent
      ∧ (∀ c, t.circuit c =
          if c ∈ named ∧ (s.circuit c).state.outside ≠ none then
            { s.circuit c with
              prior := (s.circuit c).state.outside, changeCount := 0, undeclared := false, redeclared := false
              state := .held }
          else s.circuit c)
      ∧ (∀ c, Table.get false t.window.workSet c = (Table.get false s.window.workSet c || decide (c ∈ named)))
      ∧ (∀ c ∈ named, (s.circuit c).state.outside ≠ none → Table.get false t.report.owed c = true)
      ∧ t.window = { s.window with workSet := t.window.workSet }
      ∧ (∀ i, (t.mapEntry i).owner = (s.mapEntry i).owner)
      ∧ t.journal = s.journal ∧ t.trace = s.trace ∧ t.sweep = s.sweep ∧ t.verdict = s.verdict ∧ t.pass = s.pass)
  ∧ (∀ s : State, s.window.state ≠ .noLayout →
      let count := ((chainWord s.directive.chain 0 1).extractLsb' 0 8).toNat
      let named := markList s.directive.chain
      let counted : Prop := 1 ≤ count ∧ count ≤ 40
      (¬ counted → s.markRefusal = some ⟨.refusedRange, 0⟩)
      ∧ (∀ p, counted → p < named.length → 512 ≤ named.getD p 0 → (∀ q, q < p → named.getD q 0 < 512) →
          s.markRefusal = some ⟨.refusedRange, p + 1⟩)
      ∧ (counted → (∀ c ∈ named, c < 512) →
          (s.window.state ≠ .opened → s.markRefusal = some ⟨.refusedState, 512⟩)
          ∧ (s.window.state = .opened →
              (∀ p, p < named.length → (s.circuit (named.getD p 0)).state = .empty →
                (∀ q, q < p → (s.circuit (named.getD q 0)).state ≠ .empty) →
                s.markRefusal = some ⟨.refusedState, named.getD p 0⟩)
              ∧ ((∀ c ∈ named, (s.circuit c).state ≠ .empty) → s.markRefusal = none))))
  ∧ ∀ chain : List (List Word),
      let count := ((chainWord chain 0 1).extractLsb' 0 8).toNat
      count ≤ 40 → markList chain = (List.range count).map fun p =>
        let word := if p < 13 then chainWord chain 0 (1 + (p + 1) / 2)
          else chainWord chain (1 + (p - 13) / 14) (1 + (p - 13) % 14 / 2)
        (word.extractLsb' (16 * ((p + 1) % 2)) 16).toNat

/-- R106, R107, R108: the window closes, by CLOSE or by deadline expiry: every HELD circuit becomes PENDING and
nothing else of any circuit changes, the deadline stops, the settle timer starts with the settle time held, and the
window is SETTLING with a WINDOW report owed. The expiry also sets OVERTIME and raises the cause; a CLOSE leaves the
flag. -/
def Obligations.WindowCloses : Prop :=
  ∀ (s : State) (i : Instr), s.window.state = .opened →
    ((i = .close ∧ s.inHand .close)
      ∨ (i = .deadlineExpiry ∧ s.inReset = false ∧ ∃ n, s.window.deadline = .running n)) →
    ∃ t : State, exec i s = .next t.endEvent
      ∧ t.window = { s.window with
          state := .settling, deadline := .stopped, settle := .running (1000 * s.window.settleTime)
          overtime := s.window.overtime || decide (i = .deadlineExpiry) }
      ∧ t.report.windowOwed = true
      ∧ (∀ c, c < 512 → (s.circuit c).state = .held →
          t.circuit c = { s.circuit c with state := .pending } ∧ Table.get false t.report.owed c = true)
      ∧ (∀ c, (512 ≤ c ∨ (s.circuit c).state ≠ .held) → t.circuit c = s.circuit c)
      ∧ (∀ k, (t.mapEntry k).owner = (s.mapEntry k).owner)
      ∧ t.journal = s.journal ∧ t.trace = s.trace ∧ t.sweep = s.sweep ∧ t.verdict = s.verdict ∧ t.pass = s.pass
      ∧ (i = .deadlineExpiry → s.report.enables.getLsbD 1 = true → t.report.pending.getLsbD 1 = true)
      ∧ (i = .close → t.report.pending = s.report.pending)

/-- R109, R110, R111, R120, R122: the settle timer expires. With the open backlog above 0 the window stays SETTLING and
only the timer changes. With it at 0 the window enters SWEEPING, the timer stops, the close sweep's set is the window
circuits, or every loaded circuit when the window flag OVERRUN is set, and the first read of the first circuit of the
set is requested, or held while the posted-write buffer holds a write to that word. R64, R110: with the settle timer
expired, the classification of a record of phase OPEN that leaves a backlog changes no field of the window, and the one
that empties it starts the close sweep in the same event, its set read after the classification. R125, R136: with an
empty set the window passes to VERIFYING and concludes in the same event. Stated, where a read is to be requested, with
no access of the engine outstanding. -/
def Obligations.SettleExpiryStartsSweep : Prop :=
  (∀ (s : State) (n : Nat), s.inReset = false → s.window.state = .settling → s.window.settle = .running n →
    let set := if s.window.overrun then s.loadedCircuits else s.windowCircuits
    (s.journal.openBacklog ≠ 0 →
      exec .settleExpiry s = .next (State.endEvent { s with window := { s.window with settle := .expired } }))
    ∧ (∀ c rest, s.journal.openBacklog = 0 → s.arbiter.sweep = none →
        (∀ g, s.arbiter.port = some g → g.who ≠ .sweep) → set = c :: rest →
        ∃ t : State, exec .settleExpiry s = .next t.endEvent
          ∧ t = { s with
              window := { s.window with state := .sweeping, settle := .stopped }
              sweep := { s.sweep with job := .closeSweep (c :: rest) c 1 [], held := t.sweep.held }
              arbiter := { s.arbiter with sweep := t.arbiter.sweep }
              report := { s.report with windowOwed := true, wanted := true, assured := false } }
          ∧ s.firstAccessMade t c none)
    ∧ (s.journal.openBacklog = 0 → set = [] →
        ∃ t : State, exec .settleExpiry s = .next t.endEvent
          ∧ t.window = { s.window with state := .concluded, settle := .stopped } ∧ t.report.windowOwed = true
          ∧ t.verdict.limit = ⟨false, 1000 * s.window.verifyLimit⟩ ∧ t.verdict.steady.running = false
          ∧ t.store = s.store ∧ t.journal = s.journal ∧ t.pass = s.pass ∧ t.sweep.job = .none))
  ∧ ∀ (s : State) (r : ChangeRecord) (rest : List ChangeRecord),
      s.inReset = false → s.window.state = .settling → s.window.settle = .expired → r.phase = .opened →
      s.journal.waiting = r :: rest → s.arbiter.sweep = none → (∀ g, s.arbiter.port = some g → g.who ≠ .sweep) →
      ∃ t : State, exec .classify s = .next t.endEvent
        ∧ t.journal.waiting = rest
        ∧ ((∃ q ∈ rest, q.phase = .opened) → t.window = s.window ∧ t.sweep = s.sweep)
        ∧ ((∀ q ∈ rest, q.phase ≠ .opened) →
            let set := if s.window.overrun then t.loadedCircuits else t.windowCircuits
            t.report.windowOwed = true
            ∧ (∀ c more, set = c :: more →
                t.window = { s.window with state := .sweeping, settle := .stopped }
                ∧ t.sweep = { s.sweep with job := .closeSweep set c 1 [], held := t.sweep.held }
                ∧ s.firstAccessMade t c none)
            ∧ (set = [] →
                t.window = { s.window with state := .concluded, settle := .stopped } ∧ t.sweep.job = .none
                ∧ t.verdict.limit = ⟨false, 1000 * s.window.verifyLimit⟩))

/-- R113, R114, R116: an ABANDON taken in a window: each window circuit leaves by the first row of R114, read as its fields
stood, and loses its prior state, swept words, sweep result and verdict cause; its baseline, reference power and change count
stay; circuits outside the window stay. The work set empties, every window timer stops, a close sweep ends, its granted read
left to run with its result to be discarded (the mark that says so is the model's, log entry 10), and the window is QUIET with
a WINDOW report owed. A read of the sweep not yet granted, or waiting for its retry, is withdrawn. R55, R56: with the journal
OVERRUN flag set and nothing owed the demand becomes OWED. By the model's reading (log entry 11, DEDUCED; R113 says that the
engine has no job after the event) an owed drift sweep starts in this same event with fewer than 192 records, at the first
circuit then SETTLED, and with none ends at once, clearing the flag; otherwise the journal keeps everything else. By the
model's reading (log entry 9, DEDUCED) its first request is held while the stopped sweep's granted read is in progress. Stated
with no restore listed, no capture and no drift sweep requested, as the manual has it in every window. -/
def Obligations.AbandonExecuted : Prop :=
  ∀ s : State, s.inHand .abandon → s.abandonRefusal = none →
    s.sweep.restoreList = [] → s.sweep.captureRequest = none →
    ∃ t : State, exec .abandon s = .next t.endEvent
      ∧ (∀ c, c < 512 → (s.circuit c).state.inWindow = true →
          let r := s.circuit c
          t.circuit c = { r with
            cause := none, verdictChanges := 0, prior := none, swept := none, sweepResult := none
            state :=
              if 0 < r.changeCount ∨ r.redeclared = true ∨ r.undeclared = true ∨ r.baseline = none
                  ∨ r.sweepResult = some .changed ∨ r.sweepResult = some .new then .drifted
              else match r.prior with
                | some .settled => .settled
                | some .faulted => .faulted
                | _ => .drifted }
          ∧ Table.get false t.report.owed c = true)
      ∧ (∀ c, (512 ≤ c ∨ (s.circuit c).state.inWindow = false) → t.circuit c = s.circuit c)
      ∧ t.window = { s.window with state := .quiet, deadline := .stopped, settle := .stopped, workSet := [] }
      ∧ t.report.windowOwed = true
      ∧ t.verdict = { limit := ⟨false, s.verdict.limit.remaining⟩, steady := ⟨false, s.verdict.steady.remaining⟩ }
      ∧ (∀ ch, t.evidenceOf ch = { s.evidenceOf ch with silence := .stopped })
      ∧ t.sweep.job.isCloseSweep = false
      ∧ (∀ r n, s.sweep.job.isCloseSweep = true → s.arbiter.port = some ⟨.sweep, r, n⟩ →
          t.arbiter.port = some ⟨.sweep, { r with stale := true }, n⟩)
      ∧ (∀ i, (t.mapEntry i).owner = (s.mapEntry i).owner)
      ∧ t.journal.waiting = s.journal.waiting ∧ t.journal.judged = s.journal.judged ∧ t.pass = s.pass
      ∧ (s.sweep.driftRequest = false →
          let demand : Demand :=
            if s.journal.demand = .none ∧ s.journal.overrun.isSome = true then .owed else s.journal.demand
          let due := demand = .owed ∧ s.journal.occupancy < 192
          (¬ due → t.journal = { s.journal with demand }
            ∧ (s.sweep.job.isCloseSweep = true → t.arbiter.sweep = none ∧ t.sweep.job = .none))
          ∧ (due → s.sweep.job = .none ∨ s.sweep.job.isCloseSweep = true →
              (∀ n, n < 512 → (t.circuit n).state = .settled → (∀ k, k < n → (t.circuit k).state ≠ .settled) →
                t.journal = { s.journal with demand := .running } ∧ t.sweep.job = .driftSweep n 1
                ∧ (s.sweep.job.isCloseSweep = true ∨ s.arbiter.sweep = none →
                    let first := s.connAddr ((s.circuit n).entries.getD 0 0)
                    let reading := s.arbiter.port.any fun g => decide (g.who = .sweep)
                    let waits := reading || s.pass.buffer.any fun b => decide (b.addr = first)
                    t.arbiter.sweep = (if waits then none else some { addr := first })
                    ∧ t.sweep.held = if waits then some (first, none) else none))
              ∧ ((∀ k, k < 512 → (t.circuit k).state ≠ .settled) →
                t.journal = { s.journal with demand := .none, overrun := none } ∧ t.sweep.job = .none
                ∧ (s.sweep.job.isCloseSweep = true → t.arbiter.sweep = none))))

/-- R115, R116: an ACCEPT taken in CONCLUDED: a CONFIRMED circuit, or a DEGRADED one when degraded is acceptable,
becomes SETTLED with its swept words as baseline and no cause; every other window circuit becomes FAULTED with its
baseline and cause kept. Prior states, swept words and sweep results go, the work set empties and the window is QUIET
with a WINDOW report owed. R55, R56: with the demand NONE the journal OVERRUN flag clears; an owed drift sweep starts in
the same event with fewer than 192 records, at the first circuit then SETTLED, and with none ends at once, clearing the
flag; otherwise the journal stays. Stated with no restore listed, no capture and no drift sweep requested and no job, as
the manual has it in CONCLUDED. -/
def Obligations.AcceptExecuted : Prop :=
  ∀ s : State, s.inHand .accept → s.window.state = .concluded →
    s.sweep.restoreList = [] → s.sweep.captureRequest = none →
    let degradedOk := (chainWord s.directive.chain 0 1).getLsbD 0
    ∃ t : State, exec .accept s = .next t.endEvent
      ∧ (∀ c, c < 512 → (s.circuit c).state.inWindow = true →
          let r := s.circuit c
          let settles := r.state = .confirmed ∨ (r.state = .degraded ∧ degradedOk = true)
          t.circuit c = { r with
            state := if settles then .settled else .faulted
            baseline := if settles then r.swept else r.baseline
            cause := if settles then none else r.cause
            prior := none, swept := none, sweepResult := none }
          ∧ Table.get false t.report.owed c = true)
      ∧ (∀ c, (512 ≤ c ∨ (s.circuit c).state.inWindow = false) → t.circuit c = s.circuit c)
      ∧ t.window = { s.window with state := .quiet, workSet := [] } ∧ t.report.windowOwed = true
      ∧ (∀ i, (t.mapEntry i).owner = (s.mapEntry i).owner)
      ∧ t.trace = s.trace ∧ t.verdict = s.verdict ∧ t.pass = s.pass
      ∧ t.journal.waiting = s.journal.waiting ∧ t.journal.judged = s.journal.judged
      ∧ (s.sweep.driftRequest = false → s.sweep.job = .none →
          let due := s.journal.demand = .owed ∧ s.journal.occupancy < 192
          (s.journal.demand = .none → t.journal = { s.journal with overrun := none } ∧ t.sweep = s.sweep)
          ∧ (s.journal.demand ≠ .none → ¬ due → t.journal = s.journal ∧ t.sweep = s.sweep)
          ∧ (due →
              (∀ n, n < 512 → (t.circuit n).state = .settled → (∀ k, k < n → (t.circuit k).state ≠ .settled) →
                t.journal = { s.journal with demand := .running } ∧ t.sweep.job = .driftSweep n 1
                ∧ ((∀ g, s.arbiter.port = some g → g.who ≠ .sweep) → s.firstAccessMade t n none))
              ∧ ((∀ k, k < 512 → (t.circuit k).state ≠ .settled) →
                t.journal = { s.journal with demand := .none, overrun := none } ∧ t.sweep.job = .none)))

/-- R77, R80, R81, R136, R147, R148: a RECHECK taken in CONCLUDED with a window circuit to judge: each DEGRADED or
SILENT circuit, and each BROKEN with TAG_MISMATCH, becomes PENDING with no cause and its channel's evidence is reset;
the other window circuits keep their verdicts and evidence; every window circuit's verdict changes become 0 and its
channel's silence timer runs with the full limit; the verify limit starts, the window is VERIFYING with a WINDOW
report owed, and the steady timer runs exactly if no circuit is PENDING. R136, R143: with no window circuit the window
concludes in the same event: it is CONCLUDED with a WINDOW report owed, the limit stops with its full time left, the
steady timer is stopped, every silence timer is STOPPED, CONCLUDED is raised, and no circuit changes. -/
def Obligations.RecheckExecuted : Prop :=
  (∀ s : State, s.inHand .recheck → s.window.state = .concluded → s.windowCircuits ≠ [] → s.channelsAgree →
    let again : Circuit → Prop := fun r =>
      r.state = .degraded ∨ r.state = .silent ∨ (r.state = .broken ∧ r.cause = some .tagMismatch)
    ∃ t : State, exec .recheck s = .next t.endEvent
      ∧ (∀ c, c < 512 → (s.circuit c).state.inWindow = true →
          (again (s.circuit c) → t.circuit c = { s.circuit c with
            state := .pending, cause := none, verdictChanges := 0 })
          ∧ (¬ again (s.circuit c) → t.circuit c = { s.circuit c with verdictChanges := 0 }))
      ∧ (∀ c, (512 ≤ c ∨ (s.circuit c).state.inWindow = false) → t.circuit c = s.circuit c)
      ∧ (∀ ch c, c < 512 → s.boundTo ch = some c → (s.circuit c).state.inWindow = true →
          (again (s.circuit c) → t.evidenceOf ch =
            { candidate := none, run := 0, accepted := none, power := none, dark := false, gap := false
              silence := .running s.trace.silenceLimit })
          ∧ (¬ again (s.circuit c) →
              t.evidenceOf ch = { s.evidenceOf ch with silence := .running s.trace.silenceLimit }))
      ∧ (∀ ch, (∀ c, s.boundTo ch = some c → (s.circuit c).state.inWindow = false) →
          t.evidenceOf ch = s.evidenceOf ch)
      ∧ t.window = { s.window with state := .verifying } ∧ t.report.windowOwed = true
      ∧ t.verdict.limit = ⟨true, 1000 * s.window.verifyLimit⟩
      ∧ t.verdict.steady.running = decide (t.count .pending = 0)
      ∧ (∀ i, (t.mapEntry i).owner = (s.mapEntry i).owner)
      ∧ t.journal = s.journal ∧ t.sweep = s.sweep ∧ t.pass = s.pass ∧ t.trace.arrivals = s.trace.arrivals)
  ∧ ∀ s : State, s.inHand .recheck → s.window.state = .concluded →
      (∀ c, c < 512 → (s.circuit c).state.inWindow = false) →
      ∃ t : State, exec .recheck s = .next t.endEvent
        ∧ t.window = s.window ∧ t.report.windowOwed = true
        ∧ t.verdict = {
            limit := ⟨false, 1000 * s.window.verifyLimit⟩, steady := { s.verdict.steady with running := false } }
        ∧ (∀ ch, t.evidenceOf ch = { s.evidenceOf ch with silence := .stopped })
        ∧ (s.report.enables.getLsbD 0 = true → t.report.pending.getLsbD 0 = true)
        ∧ t.store = s.store ∧ t.journal = s.journal ∧ t.sweep = s.sweep ∧ t.pass = s.pass
        ∧ t.trace.arrivals = s.trace.arrivals

/-! ### Directives -/

/-- R156, R157, R55: a directive that a check refuses changes no state of any block but the Directive Unit's own:
the answer of the first failed check is completed along the chain, and the cause REFUSED is raised. R117: CLOSE is
refused outside OPEN, ACCEPT and RECHECK outside CONCLUDED, and ABANDON in QUIET, each with REFUSED_STATE and detail 512;
these four have no other check. R162: a SET_POLICY whose mode code names no mode is answered REFUSED_RANGE with detail 1,
and otherwise one outside QUIET REFUSED_STATE with detail 512. The statements of the other directives give the answers
of their checks. -/
def Obligations.RefusedDirectiveChangesNothing : Prop :=
  (∀ (k : DirectiveKind) (s : State) (a : DirectiveAnswer), s.inHand k → refusalOf k s = some a →
    ∃ t : State, exec (commandOf k) s = .next t.endEvent
      ∧ t = { s with
          directive := { s.directive with
            step := .completing (s.directive.completionWords a) s.directive.chain.length }
          arbiter := { s.arbiter with directive := t.arbiter.directive }
          report := (s.raise .refused).report }
      ∧ t.arbiter.directive ≠ none)
  ∧ ∀ s : State, s.window.state ≠ .noLayout →
      let refused : Option DirectiveAnswer := some ⟨.refusedState, 512⟩
      let code := ((chainWord s.directive.chain 0 1).extractLsb' 0 8).toNat
      refusalOf .close s = (if s.window.state = .opened then none else refused)
      ∧ refusalOf .accept s = (if s.window.state = .concluded then none else refused)
      ∧ refusalOf .recheck s = (if s.window.state = .concluded then none else refused)
      ∧ refusalOf .abandon s = (if s.window.state = .quiet then refused else none)
      ∧ refusalOf .setPolicy s =
          (if code ≠ 1 ∧ code ≠ 2 then some ⟨.refusedRange, 1⟩
           else if s.window.state = .quiet then none
           else refused)

/-- R156, R157: a directive that passes its checks, other than a LOAD in QUIET, is answered DONE with detail 0: the
Directive Unit enters COMPLETING with one word 0 for each slot of the chain, the first slot's last, keeps its next
slot and ready set, and requests the first write with all four lanes. R157, R172: the words of any answer, continuation
slots first in chain order: a continuation slot gets CONTINUED with detail 0, the first slot the outcome and the detail; a
word echoes bits 12 to 0 of the fetched word 0 (tag, kind, continuation mark), has the ready mark clear, the outcome code in
bits 17 to 14 and the detail in bits 31 to 18. -/
def Obligations.AcceptedDirectiveAnsweredDone : Prop :=
  (∀ (k : DirectiveKind) (s : State), s.inHand k → refusalOf k s = none →
    (k = .load → s.window.state ≠ .quiet) →
    let words := s.directive.completionWords ⟨.done, 0⟩
    ∃ t : State, ∃ slot w rest, exec (commandOf k) s = .next t.endEvent
      ∧ words = (slot, w) :: rest
      ∧ t.directive = { s.directive with step := .completing words s.directive.chain.length }
      ∧ t.arbiter.directive = some { addr := s.ringBase + 32 * slot, write := some (w, 0xF) }
      ∧ words.length = max 1 s.directive.chain.length
      ∧ words.getLast? = some (s.directive.nextSlot, answerWord (chainWord s.directive.chain 0 0) ⟨.done, 0⟩))
  ∧ ∀ (d : DirectiveUnit) (a : DirectiveAnswer),
      let code (o : DirectiveOutcome) : BitVec 4 := BitVec.ofNat 4 ([.done, .refusedState, .refusedRange, .noLayout,
        .busy, .duplicate, .conflict, .malformed, .fault, .fetchFault, .continued].idxOf o + 1)
      let word (w : Word) (o : DirectiveOutcome) (detail : Nat) : Word :=
        BitVec.ofNat 14 detail ++ code o ++ 0#1 ++ w.extractLsb' 0 13
      (∀ w, answerWord w a = word w a.outcome a.detail)
      ∧ d.completionWords a =
          (List.range (d.chain.length - 1)).map (fun k =>
            ((d.nextSlot + k + 1) % 64, word (chainWord d.chain (k + 1) 0) .continued 0))
          ++ [(d.nextSlot, word (chainWord d.chain 0 0) a.outcome a.detail)]

/-- R28, R99, R160, R161, R166: an accepted LAYOUT: its fields are the layout, every tag assembly is twelve zero
octets, the report indices are 0, the window is QUIET with a WINDOW report owed, and the summary is wanted. No entry,
binding, evidence, queued arrival or journal item changes. A report record in flight goes on to the old ring, and its
report is owed again with its fence hits added back, in this event by the model's reading (log entry 13). R160: the
first of the nine placement checks that fails gives REFUSED_RANGE with its number; a LAYOUT well placed is taken in
NO_LAYOUT, refused with REFUSED_STATE and detail 512 in OPEN to CONCLUDED, and in QUIET with detail 1, 2 or 3 for a
loaded circuit, a record in the journal or a sweep job running or waiting. Where several
of the three hold, that the first gives the detail is the model's choice (log entry 22). R172: the fields are read from
these bits of words 1 to 6. -/
def Obligations.LayoutAccepted : Prop :=
  (∀ s : State, s.inHand .layout → s.layoutRefusal = none →
    let f := layoutFields s.directive.chain
    ∃ t : State, ∃ l, exec .layout s = .next t.endEvent
      ∧ t.layout = some l
      ∧ l.connBase = f.connBase ∧ l.connCount = f.connCount ∧ l.landBase = f.landBase
      ∧ l.channelCount = f.channelCount ∧ l.reportBase = f.reportBase ∧ l.summaryBase = f.summaryBase
      ∧ l.framers = f.framers
      ∧ l.reportSize = 64 * 2 ^ f.sizeCode
      ∧ t.pass = { s.pass with assembly := t.pass.assembly }
      ∧ (∀ ch, Table.get zeroTag t.pass.assembly ch = Vector.replicate 12 0)
      ∧ t.window = { s.window with state := .quiet }
      ∧ t.report.producer = 0 ∧ t.report.consumer = 0 ∧ t.report.rejected = false
      ∧ t.report.windowOwed = true ∧ t.report.wanted = true
      ∧ t.store = { s.store with circuits := t.store.circuits }
      ∧ t.trace = s.trace ∧ t.journal = s.journal ∧ t.sweep = s.sweep
      ∧ (s.report.writer.isWriting = false → t.store = s.store ∧ t.report.writer = s.report.writer)
      ∧ (∀ item base left, s.report.writer = .writing item base left false →
          t.report.writer = .writing item base left true)
      ∧ ∀ c hits base left, s.report.writer = .writing (.circuit c hits) base left false →
          Table.get false t.report.owed c = true
          ∧ t.circuit c = { s.circuit c with fenceHits := min 255 ((s.circuit c).fenceHits + hits) }
          ∧ ∀ c', c' ≠ c → t.circuit c' = s.circuit c')
  ∧ (∀ s : State,
      let f := layoutFields s.directive.chain
      let regions : List (Nat × Nat) :=
        [(s.ringBase, 2048), (f.connBase, 4 * f.connCount), (f.landBase, 16 * f.channelCount),
          (f.reportBase, 16 * (64 * 2 ^ f.sizeCode)), (f.summaryBase, 64)]
      let within (a k : Nat) : Prop :=
        (regions.getD k (0, 0)).1 ≤ a ∧ a < (regions.getD k (0, 0)).1 + (regions.getD k (0, 0)).2
      let fails (n : Nat) : Prop :=
        (n = 1 ∧ f.connBase % 4 ≠ 0) ∨ (n = 2 ∧ (f.connCount < 1 ∨ 8192 < f.connCount))
          ∨ (n = 3 ∧ f.landBase % 16 ≠ 0) ∨ (n = 4 ∧ (f.channelCount < 1 ∨ 512 < f.channelCount))
          ∨ (n = 5 ∧ f.reportBase % 16 ≠ 0) ∨ (n = 6 ∧ 4 < f.sizeCode) ∨ (n = 7 ∧ f.summaryBase % 64 ≠ 0)
          ∨ (n = 8 ∧ ∃ r ∈ regions, 0x40000000 < r.1 + r.2)
          ∨ (n = 9 ∧ ∃ j k a, j < k ∧ k < 5 ∧ within a j ∧ within a k)
      (∀ n, fails n → (∀ m, m < n → ¬ fails m) → s.layoutRefusal = some ⟨.refusedRange, n⟩)
      ∧ ((∀ n, ¬ fails n) →
          (s.window.state = .noLayout → s.layoutRefusal = none)
          ∧ (s.window.state ≠ .noLayout → s.window.state ≠ .quiet →
              s.layoutRefusal = some ⟨.refusedState, 512⟩)
          ∧ (s.window.state = .quiet →
              let loaded : Prop := ∃ c, c < 512 ∧ (s.circuit c).state ≠ .empty
              let swept : Prop := s.sweep.job ≠ .none ∨ s.sweep.captureRequest ≠ none
                ∨ s.sweep.driftRequest = true ∨ s.sweep.restoreList ≠ []
              (loaded → s.layoutRefusal = some ⟨.refusedState, 1⟩)
              ∧ (¬ loaded → s.journal.occupancy ≠ 0 → s.layoutRefusal = some ⟨.refusedState, 2⟩)
              ∧ (¬ loaded → s.journal.occupancy = 0 → swept → s.layoutRefusal = some ⟨.refusedState, 3⟩)
              ∧ (¬ loaded → s.journal.occupancy = 0 → ¬ swept → s.layoutRefusal = none))))
  ∧ ∀ chain : List (List Word),
      let f := layoutFields chain
      let w (k : Nat) : Word := chainWord chain 0 k
      f.connBase = (w 1).toNat
      ∧ f.connCount = ((w 2).extractLsb' 0 16).toNat ∧ f.channelCount = ((w 2).extractLsb' 16 16).toNat
      ∧ f.landBase = (w 3).toNat ∧ f.reportBase = (w 4).toNat ∧ f.sizeCode = ((w 5).extractLsb' 0 3).toNat
      ∧ f.framers = (w 5).extractLsb' 16 16 ∧ f.summaryBase = (w 6).toNat

/-- R162, R12, R15: a SET_POLICY accepted in QUIET takes the mode and the nine enables. With the mode already in
force every entry stays; with another, every index's fenced flag follows the fence rule under the new mode and no
owner changes. R13: an index is fenced where its owner is PENDING, CONFIRMED, DEGRADED, BROKEN, SILENT or RESTORING, and in
GUARD also where it is LOADING, SETTLED, DRIFTED or FAULTED; not where it is HELD, and not without an owner. No pending
cause and no circuit changes. -/
def Obligations.PolicyTaken : Prop :=
  ∀ s : State, s.inHand .setPolicy → s.policyRefusal = none →
    let code := ((chainWord s.directive.chain 0 1).extractLsb' 0 8).toNat
    let mode : Mode := if code = 1 then .watch else .guard
    let fenced (st : CircuitState) : Bool :=
      decide (st ∈ [.pending, .confirmed, .degraded, .broken, .silent, .restoring])
        || (decide (mode = .guard) && decide (st ∈ [.loading, .settled, .drifted, .faulted]))
    ∃ t : State, exec .setPolicy s = .next t.endEvent
      ∧ t.store = { s.store with mode := mode, entryMap := t.store.entryMap }
      ∧ (mode = s.store.mode → t.store = s.store)
      ∧ (mode ≠ s.store.mode → ∀ i, t.mapEntry i =
          { owner := (s.mapEntry i).owner
            fenced := (s.mapEntry i).owner.elim false fun c => fenced (s.circuit c).state })
      ∧ t.report = { s.report with
          enables := (chainWord s.directive.chain 0 1).extractLsb' 16 9
          wanted := s.report.wanted || decide (mode ≠ s.store.mode) }
      ∧ t.window = s.window ∧ t.trace = s.trace ∧ t.journal = s.journal ∧ t.sweep = s.sweep ∧ t.pass = s.pass

/-- R4, R5, R11, R20: a LOAD in QUIET that passes its checks: the circuit takes its tag, its clamped parameters, its
entries and its channel, loses its baseline, cause, sweep result and restore outcome, and is LOADING; its entries are
its own, fenced exactly in GUARD; indices it no longer lists are free; the channel is bound to it; it leaves the restore
list; the Directive Unit is held; and the capture waits, or starts with the engine idle: the read of its first entry is
requested, or held while the posted-write buffer holds a write to that word (R120). Other circuits stay. R172: the
fields stand at the bits that `loadPlaced` writes out. R18, R19: the first check of a LOAD that fails gives the answer:
REFUSED_RANGE with detail 0 for the circuit number, the entry count or the channel, or with the position of the first
entry out of range or listed before; REFUSED_STATE with detail 512 for the window's state or 0 for the circuit's;
CONFLICT with the other owner of the first entry that has one, or with the other circuit the channel is bound to. -/
def Obligations.LoadInQuietStartsCapture : Prop :=
  (∀ s : State, s.inHand .load → s.loadRefusal = none → s.window.state = .quiet →
    s.entriesAgree → s.channelsAgree →
    let f := s.loadInHand
    let c := f.circuit
    ∃ t : State, exec .load s = .next t.endEvent
      ∧ t.circuit c = { s.circuit c with
          tag := f.tag
          persistence := max 1 (min 15 f.persistence), tolerance := min 2000 f.tolerance
          floor := max (-5000) (min 1000 f.floor), shift := min 4 f.shift
          entries := f.entries, channel := some f.channel, baseline := none, cause := none
          sweepResult := none, restoreOutcome := none, suspect := false, state := .loading }
      ∧ (∀ c', c' ≠ c → t.circuit c' = s.circuit c')
      ∧ (∀ i, i ∈ f.entries → t.mapEntry i = { owner := some c, fenced := decide (s.store.mode = .guard) })
      ∧ (∀ i, i ∉ f.entries → i ∈ (s.circuit c).entries → t.mapEntry i = {})
      ∧ (∀ i, i ∉ f.entries → i ∉ (s.circuit c).entries → t.mapEntry i = s.mapEntry i)
      ∧ t.boundTo f.channel = some c
      ∧ (∀ ch, ch ≠ f.channel → t.boundTo ch = if s.boundTo ch = some c then none else s.boundTo ch)
      ∧ ((s.circuit c).channel ≠ some f.channel → t.evidenceOf f.channel = {})
      ∧ ((s.circuit c).channel = some f.channel → t.evidenceOf f.channel = s.evidenceOf f.channel)
      ∧ c ∉ t.sweep.restoreList
      ∧ t.directive = { s.directive with step := .held }
      ∧ (s.sweep.job = .none → t.sweep.job = .capture c 1 ∧ t.sweep.captureRequest = none
          ∧ (s.arbiter.sweep = none → (∀ g, s.arbiter.port = some g → g.who ≠ .sweep) →
              let first := s.connAddr (f.entries.getD 0 0)
              let waits := s.pass.buffer.any fun b => decide (b.addr = first)
              t.arbiter.sweep = (if waits then none else some { addr := first })
              ∧ t.sweep.held = if waits then some (first, none) else none))
      ∧ (s.sweep.job ≠ .none → t.sweep.job = s.sweep.job ∧ t.sweep.captureRequest = some c)
      ∧ Table.get false t.report.owed c = true
      ∧ t.window = s.window ∧ t.journal = s.journal ∧ t.pass = s.pass)
  ∧ (∀ s : State, s.loadPlaced)
  ∧ ∀ (s : State) (l : Layout), s.layout = some l → s.window.state ≠ .noLayout →
      let f := s.loadInHand
      let st := (s.circuit f.circuit).state
      let entry (p : Nat) : Nat := f.entries.getD p 0
      let bad (p : Nat) : Prop := l.connCount ≤ entry p ∨ entry p ∈ f.entries.take p
      let own (o : Option Nat) : Prop := o = none ∨ o = some f.circuit
      let named : Prop := f.circuit < 512 ∧ 1 ≤ f.entryCount ∧ f.entryCount ≤ 6
      let listed : Prop := named ∧ ∀ p, p < f.entries.length → ¬ bad p
      let inRange : Prop := listed ∧ f.channel < l.channelCount
      let taken : Prop :=
        (s.window.state = .quiet ∧ (st = .empty ∨ st = .settled ∨ st = .drifted ∨ st = .faulted))
          ∨ (s.window.state = .opened ∧ (st = .empty ∨ st = .held))
      (¬ named → s.loadRefusal = some ⟨.refusedRange, 0⟩)
      ∧ (∀ p, named → p < f.entries.length → bad p → (∀ q, q < p → ¬ bad q) →
          s.loadRefusal = some ⟨.refusedRange, p + 1⟩)
      ∧ (listed → l.channelCount ≤ f.channel → s.loadRefusal = some ⟨.refusedRange, 0⟩)
      ∧ (inRange → s.window.state ≠ .quiet → s.window.state ≠ .opened →
          s.loadRefusal = some ⟨.refusedState, 512⟩)
      ∧ (inRange → (s.window.state = .quiet ∨ s.window.state = .opened) → ¬ taken →
          s.loadRefusal = some ⟨.refusedState, 0⟩)
      ∧ (inRange → taken →
          (∀ p c, p < f.entries.length → (s.mapEntry (entry p)).owner = some c → c ≠ f.circuit →
            (∀ q, q < p → own (s.mapEntry (entry q)).owner) → s.loadRefusal = some ⟨.conflict, c⟩)
          ∧ ((∀ i ∈ f.entries, own (s.mapEntry i).owner) →
              (∀ c, s.boundTo f.channel = some c → c ≠ f.circuit → s.loadRefusal = some ⟨.conflict, c⟩)
              ∧ (own (s.boundTo f.channel) → s.loadRefusal = none)))

/-- R4, R22: a LOAD in OPEN of an EMPTY circuit makes it HELD in the work set, with its tag, clamped parameters,
entries and channel, no baseline, no reference power and entry condition UNKNOWN; its entries are its own and not
fenced, and its channel's evidence is reset. Other circuits stay. R4, R5, R23: a LOAD in OPEN of a HELD circuit: it
takes the new tag and clamped parameters; a different entry list, the order counted, replaces the old one, with the
baseline absent and redeclared yes; a different channel makes the reference power absent and the entry condition
UNKNOWN; everything else of the circuit stays, and it stays in or out of the work set. R172: the fields
stand at the bits that `loadPlaced` writes out. -/
def Obligations.LoadInOpen : Prop :=
  (∀ s : State, s.inHand .load → s.loadRefusal = none → s.window.state = .opened →
      s.entriesAgree → s.channelsAgree →
      let f := s.loadInHand
      let c := f.circuit
      (s.circuit c).state = .empty → (s.circuit c).entries = [] → (s.circuit c).channel = none →
      ∃ t : State, exec .load s = .next t.endEvent
        ∧ t.circuit c = { s.circuit c with
            tag := f.tag
            persistence := max 1 (min 15 f.persistence), tolerance := min 2000 f.tolerance
            floor := max (-5000) (min 1000 f.floor), shift := min 4 f.shift
            entries := f.entries, channel := some f.channel, baseline := none, reference := none
            entryCondition := some .unknown, prior := none, changeCount := 0
            undeclared := false, redeclared := false, state := .held }
        ∧ (∀ c', c' ≠ c → t.circuit c' = s.circuit c')
        ∧ (∀ i, t.mapEntry i = if i ∈ f.entries then { owner := some c, fenced := false } else s.mapEntry i)
        ∧ (∀ ch, t.boundTo ch = if ch = f.channel then some c else s.boundTo ch)
        ∧ (∀ ch, t.evidenceOf ch = if ch = f.channel then {} else s.evidenceOf ch)
        ∧ (∀ k, Table.get false t.window.workSet k = if k = c then true else Table.get false s.window.workSet k)
        ∧ Table.get false t.report.owed c = true
        ∧ t.journal = s.journal ∧ t.sweep = s.sweep ∧ t.pass = s.pass)
  ∧ (∀ s : State, s.inHand .load → s.loadRefusal = none → s.window.state = .opened →
      s.entriesAgree → s.channelsAgree →
      let f := s.loadInHand
      let c := f.circuit
      let r := s.circuit c
      r.state = .held →
      ∃ t : State, exec .load s = .next t.endEvent
        ∧ t.circuit c = { r with
            tag := f.tag
            persistence := max 1 (min 15 f.persistence), tolerance := min 2000 f.tolerance
            floor := max (-5000) (min 1000 f.floor), shift := min 4 f.shift
            entries := f.entries
            baseline := if f.entries = r.entries then r.baseline else none
            redeclared := if f.entries = r.entries then r.redeclared else true
            channel := some f.channel
            reference := if r.channel = some f.channel then r.reference else none
            entryCondition := if r.channel = some f.channel then r.entryCondition else some .unknown }
        ∧ (∀ c', c' ≠ c → t.circuit c' = s.circuit c')
        ∧ (∀ i, i ∈ f.entries → (t.mapEntry i).owner = some c)
        ∧ (∀ i, i ∉ f.entries → t.mapEntry i = if i ∈ r.entries then {} else s.mapEntry i)
        ∧ t.boundTo f.channel = some c
        ∧ (r.channel = some f.channel → t.trace = s.trace)
        ∧ (r.channel ≠ some f.channel → t.evidenceOf f.channel = {})
        ∧ t.window = s.window ∧ Table.get false t.report.owed c = true
        ∧ t.journal = s.journal ∧ t.sweep = s.sweep ∧ t.pass = s.pass)
  ∧ ∀ s : State, s.loadPlaced

/-- R17, R24, R25: a DROP that passes its checks: a loaded circuit is released, so its record returns to its reset
values except fence hits, its entries have owner none and are not fenced, its channel is unbound with its evidence
kept, it leaves the restore list, the rest keeping their order, and the work set, and a CIRCUIT report is owed; a DROP
of an EMPTY circuit changes no table. Other circuits stay. R24, R25: a circuit number out of range is answered
REFUSED_RANGE with detail 0; in QUIET a LOADING or RESTORING circuit REFUSED_STATE, with detail 0 by the model's choice
(log entry 20); in OPEN any circuit not HELD REFUSED_STATE with detail 0; in any later window state REFUSED_STATE with
detail 512. -/
def Obligations.DropReleases : Prop :=
  (∀ s : State, s.inHand .drop → s.dropRefusal = none →
    let c := ((chainWord s.directive.chain 0 1).extractLsb' 0 16).toNat
    let r := s.circuit c
    ∃ t : State, exec .drop s = .next t.endEvent
      ∧ (∀ c', c' ≠ c → t.circuit c' = s.circuit c')
      ∧ (r.state = .empty → t.store = s.store ∧ t.window = s.window ∧ t.trace = s.trace ∧ t.sweep = s.sweep
          ∧ t.report = s.report)
      ∧ (r.state ≠ .empty →
          t.circuit c = { fenceHits := r.fenceHits }
          ∧ (∀ i, t.mapEntry i = if i ∈ r.entries then {} else s.mapEntry i)
          ∧ (∀ ch, t.boundTo ch = if r.channel = some ch then none else s.boundTo ch)
          ∧ (∀ ch, t.evidenceOf ch =
              if r.channel = some ch then { s.evidenceOf ch with silence := .stopped } else s.evidenceOf ch)
          ∧ t.sweep = { s.sweep with restoreList := s.sweep.restoreList.filter (· ≠ c) }
          ∧ (∀ k, Table.get false t.window.workSet k
              = if k = c then false else Table.get false s.window.workSet k)
          ∧ Table.get false t.report.owed c = true)
      ∧ t.journal = s.journal ∧ t.verdict = s.verdict ∧ t.pass = s.pass)
  ∧ ∀ s : State, s.window.state ≠ .noLayout →
      let c := ((chainWord s.directive.chain 0 1).extractLsb' 0 16).toNat
      let st := (s.circuit c).state
      (512 ≤ c → s.dropRefusal = some ⟨.refusedRange, 0⟩)
      ∧ (c < 512 →
          (s.window.state = .quiet → st = .empty ∨ st = .settled ∨ st = .drifted ∨ st = .faulted →
            s.dropRefusal = none)
          ∧ (s.window.state = .quiet → st = .loading ∨ st = .restoring →
            s.dropRefusal = some ⟨.refusedState, 0⟩)
          ∧ (s.window.state = .opened →
            s.dropRefusal = if st = .held then none else some ⟨.refusedState, 0⟩)
          ∧ (s.window.state ≠ .quiet → s.window.state ≠ .opened →
            s.dropRefusal = some ⟨.refusedState, 512⟩))

/-- R118, R119, R128, R129, R130: a RESTORE that passes its checks is appended to the restore list. With a job running
it waits there and no circuit changes; with the engine idle and nothing else waiting it leaves the list at once, the
circuit becomes RESTORING with its state recorded as the earlier state, and the job is at its first entry: the write of
its baseline word is requested, or held while the posted-write buffer holds a write to that word (R120). R128: the first
of the six checks that fails gives the answer: REFUSED_RANGE 0 for the circuit number, REFUSED_STATE 512 outside QUIET,
REFUSED_STATE 0 for a circuit neither DRIFTED nor FAULTED, REFUSED_RANGE 1 with no baseline, DUPLICATE with its position
in the list, BUSY 0 with eight listed. -/
def Obligations.RestoreListedOrStarted : Prop :=
  (∀ s : State, s.inHand .restore → s.restoreRefusal = none →
    let c := ((chainWord s.directive.chain 0 1).extractLsb' 0 16).toNat
    ∃ t : State, exec .restore s = .next t.endEvent
      ∧ (s.sweep.job ≠ .none →
          t.sweep = { s.sweep with restoreList := s.sweep.restoreList ++ [c] } ∧ t.store = s.store)
      ∧ (s.sweep.job = .none → s.sweep.restoreList = [] → s.sweep.captureRequest = none →
          s.sweep.driftRequest = false →
          t.sweep.restoreList = [] ∧ t.circuit c = { s.circuit c with state := .restoring }
          ∧ (∃ o, (s.circuit c).state = o.toState ∧ t.sweep.job = .restore c 1 o)
          ∧ Table.get false t.report.owed c = true
          ∧ (s.arbiter.sweep = none → (∀ g, s.arbiter.port = some g → g.who ≠ .sweep) →
              let first := s.connAddr ((s.circuit c).entries.getD 0 0)
              let word := ((s.circuit c).baseline.getD []).getD 0 0
              let waits := s.pass.buffer.any fun b => decide (b.addr = first)
              t.arbiter.sweep = (if waits then none else some { addr := first, write := some (word, 0xF) })
              ∧ t.sweep.held = if waits then some (first, some word) else none))
      ∧ (∀ c', c' ≠ c → s.sweep.restoreList = [] → s.sweep.driftRequest = false → t.circuit c' = s.circuit c')
      ∧ t.window = s.window ∧ t.trace = s.trace ∧ t.pass = s.pass)
  ∧ ∀ s : State, s.window.state ≠ .noLayout →
      let c := ((chainWord s.directive.chain 0 1).extractLsb' 0 16).toNat
      let r := s.circuit c
      let list := s.sweep.restoreList
      let named : Prop := c < 512 ∧ s.window.state = .quiet ∧ (r.state = .drifted ∨ r.state = .faulted)
      (512 ≤ c → s.restoreRefusal = some ⟨.refusedRange, 0⟩)
      ∧ (c < 512 → s.window.state ≠ .quiet → s.restoreRefusal = some ⟨.refusedState, 512⟩)
      ∧ (c < 512 → s.window.state = .quiet → r.state ≠ .drifted → r.state ≠ .faulted →
          s.restoreRefusal = some ⟨.refusedState, 0⟩)
      ∧ (named → r.baseline = none → s.restoreRefusal = some ⟨.refusedRange, 1⟩)
      ∧ (∀ p, named → r.baseline ≠ none → p < list.length → list.getD p 0 = c →
          (∀ q, q < p → list.getD q 0 ≠ c) → s.restoreRefusal = some ⟨.duplicate, p + 1⟩)
      ∧ (named → r.baseline ≠ none → c ∉ list →
          s.restoreRefusal = if 8 ≤ list.length then some ⟨.busy, 0⟩ else none)

/-- R152, R153, R154, R155: a fetch read completes. A word 0 with the ready mark clear is stale: it is discarded, and the unit
waits again for the same slot. Any other word joins the slot's words and the next word of the slot is requested. The eighth
word completes the slot: with the continuation mark set in its word 0 and room in the chain the unit waits for the next slot,
and otherwise the chain is checked. Where the unit would wait and the mark of that slot already stands in the ready set, the
mark leaves the set and the read of the slot's word 0 is requested in the same event; every other mark stays. R155, R157: the
first check a chain fails gives the answer, MALFORMED 2 for a third slot with the continuation mark, MALFORMED 1 for a kind
code that names no kind, MALFORMED 3 for a chain of fewer slots than its kind needs (a LOAD two; an OPEN or MARK by its
count), NO_LAYOUT for a kind other than LAYOUT before a layout; the refused chain is completed with REFUSED raised and nothing
else changed. A chain that passes is ready for execution, in the model's own step value `checked` (log entry 8). -/
def Obligations.FetchReadCompletes : Prop :=
  ∀ (s : State) (r : Request) (words : List Word) (data : Word),
    s.inProgress .directive r → s.directive.step = .fetching words →
    let d := s.directive
    let slot := (d.nextSlot + d.chain.length) % 64
    let slotWords := words ++ [data]
    let chain := d.chain ++ [slotWords]
    let freed := { s.arbiter with port := none }
    let refetches (slot : Nat) (chain : List (List Word)) : Prop :=
      ∃ ready, (∀ n, Table.get false ready n = if n = slot then false else Table.get false d.ready n)
        ∧ exec (.directiveFetchReadComplete data) s = .next (State.endEvent { s with
            arbiter := { freed with directive := some { addr := s.ringBase + 32 * slot } }
            directive := { d with chain, ready, step := .fetching [] } })
    (words = [] → data.getLsbD 13 = false →
      (Table.get false d.ready slot = false →
        exec (.directiveFetchReadComplete data) s = .next (State.endEvent { s with
          arbiter := freed, directive := { d with step := if d.chain = [] then .idle else .chainWait } }))
      ∧ (Table.get false d.ready slot = true → refetches slot d.chain))
    ∧ ((words ≠ [] ∨ data.getLsbD 13 = true) → words.length < 7 →
      exec (.directiveFetchReadComplete data) s = .next (State.endEvent { s with
        arbiter := { freed with
          directive := some { addr := s.ringBase + 32 * slot + 4 * (words.length + 1) } }
        directive := { d with step := .fetching slotWords } }))
    ∧ (words.length = 7 → (slotWords.getD 0 0).getLsbD 12 = true → d.chain.length < 2 →
      let following := (d.nextSlot + d.chain.length + 1) % 64
      (Table.get false d.ready following = false →
        exec (.directiveFetchReadComplete data) s = .next (State.endEvent { s with
          arbiter := freed, directive := { d with chain, step := .chainWait } }))
      ∧ (Table.get false d.ready following = true → refetches following chain))
    ∧ (words.length = 7 → (slotWords.getD 0 0).getLsbD 12 = false ∨ 2 ≤ d.chain.length →
      let count (lo : Nat) : Nat := ((chainWord chain 0 1).extractLsb' lo 8).toNat
      let needed (k : DirectiveKind) : Nat :=
        if k = .load then 2
        else if k = .openWindow then (if count 16 ≤ 4 then 1 else if count 16 ≤ 18 then 2 else 3)
        else if k = .mark then (if count 0 ≤ 13 then 1 else if count 0 ≤ 27 then 2 else 3)
        else 1
      let refused (a : DirectiveAnswer) : Prop :=
        ∃ first w rest, ({ d with chain } : DirectiveUnit).completionWords a = (first, w) :: rest
          ∧ exec (.directiveFetchReadComplete data) s = .next (State.endEvent { s with
              arbiter := { freed with
                directive := some { addr := s.ringBase + 32 * first, write := some (w, 0xF) } }
              directive := { d with chain, step := .completing ((first, w) :: rest) chain.length }
              report := (s.raise .refused).report })
      ((chainWord chain 2 0).getLsbD 12 = true → refused ⟨.malformed, 2⟩)
      ∧ ((chainWord chain 2 0).getLsbD 12 = false →
          (chainKind chain = none → refused ⟨.malformed, 1⟩)
          ∧ ∀ k, chainKind chain = some k →
              (chain.length < needed k → refused ⟨.malformed, 3⟩)
              ∧ (needed k ≤ chain.length → s.layout = none → k ≠ .layout → refused ⟨.noLayout, 0⟩)
              ∧ (needed k ≤ chain.length → s.layout ≠ none ∨ k = .layout →
                  exec (.directiveFetchReadComplete data) s = .next (State.endEvent { s with
                    arbiter := freed, directive := { d with chain, step := .checked } }))))

/-- R157, R159: a completion write ends: the next word 0 is requested, or, after the last, the unit advances past the
chain, the slot assembly empties and the step is IDLE, or FETCHING where the next slot's mark is in the ready set.
The second failure of the write has the same effect, with the failure recorded and BUS_FAULT raised. -/
def Obligations.CompletionWriteEnds : Prop :=
  ∀ (s : State) (r : Request) (slot : Nat) (w : Word) (left : List (Nat × Word)) (advance : Nat),
    s.inProgress .directive r → s.directive.step = .completing ((slot, w) :: left) advance →
    let next := (s.directive.nextSlot + advance) % 64
    let freed := { s.arbiter with port := none }
    (∀ slot' w' rest, left = (slot', w') :: rest →
      exec .directiveCompletionWriteEnd s = .next (State.endEvent { s with
        arbiter := { freed with directive := some { addr := s.ringBase + 32 * slot', write := some (w', 0xF) } }
        directive := { s.directive with step := .completing left advance } }))
    ∧ (left = [] → Table.get false s.directive.ready next = false →
      exec .directiveCompletionWriteEnd s = .next (State.endEvent { s with
        arbiter := freed, directive := { s.directive with nextSlot := next, step := .idle, chain := [] } }))
    ∧ (left = [] → Table.get false s.directive.ready next = true →
      ∃ ready, (∀ n, Table.get false ready n = if n = next then false else Table.get false s.directive.ready n)
        ∧ exec .directiveCompletionWriteEnd s = .next (State.endEvent { s with
            arbiter := { freed with directive := some { addr := s.ringBase + 32 * next } }
            directive := { s.directive with nextSlot := next, step := .fetching [], chain := [], ready } }))
    ∧ (∃ t, exec .directiveCompletionWriteEnd s = .next t)
    ∧ ∀ i, failsAccess i → r.retry = true → r.stale = false →
        exec i s = exec .directiveCompletionWriteEnd { s with
          arbiter := { s.arbiter with fault := ⟨r.addr, .directive, 0⟩ }
          report := (s.wantSummary.raise .busFault).report }

/-! ### The Sweep Engine -/

/-- R6, R121, R21: a capture read completes: its word is the circuit's baseline word at the position. With entries left the
next one's read is requested, or held while the posted-write buffer holds a write to that word (R120). After the last the
circuit, LOADING till then, becomes SETTLED, or DRIFTED if a write to its entries was classified meanwhile, no longer suspect,
and the LOAD in hand is answered DONE. R17, R21, R121: the second failure of a capture read releases the circuit, LOADING till
then, and answers the LOAD in hand FAULT with the entry position; the circuit leaves the restore list. R119: at either end the
first waiting job starts in the same event, as `waitingJobStarts` spells it. No circuit but the capture's own changes, but
for the head of the restore list if its restore starts. -/
def Obligations.CaptureReads : Prop :=
  (∀ (s : State) (r : Request) (c p : Nat) (data : Word),
      s.inProgress .sweep r → r.stale = false → s.arbiter.sweep = none → s.sweep.job = .capture c p →
      let old := s.circuit c
      let next := s.connAddr (old.entries.getD p 0)
      let waits := s.pass.buffer.any fun b => decide (b.addr = next)
      let kept := some (old.baseline.getD [] ++ [data])
      (p < old.entries.length →
        ∃ t : State, exec (.captureReadComplete data) s = .next t.endEvent
          ∧ t = { s with
              store := { s.store with circuits := t.store.circuits }
              arbiter := { s.arbiter with port := none, sweep := if waits then none else some { addr := next } }
              sweep := { s.sweep with
                job := .capture c (p + 1), held := if waits then some (next, none) else none } }
          ∧ (∀ k, t.circuit k = if k = c then { old with baseline := kept } else s.circuit k))
      ∧ (old.entries.length ≤ p → old.state = .loading →
        ∃ t : State, exec (.captureReadComplete data) s = .next t.endEvent
          ∧ s.waitingJobStarts t c
              { old with baseline := kept, suspect := false, state := if old.suspect then .drifted else .settled }
              s.sweep.restoreList
          ∧ Table.get false t.report.owed c = true
          ∧ t.directive = { s.directive with
              step := .completing (s.directive.completionWords ⟨.done, 0⟩) s.directive.chain.length }
          ∧ t.window = s.window ∧ t.trace = s.trace ∧ t.pass = s.pass))
  ∧ (∀ (i : Instr) (s : State) (r : Request) (c p : Nat), failsAccess i →
      s.inProgress .sweep r → r.retry = true → r.stale = false → s.sweep.job = .capture c p →
      (s.circuit c).state = .loading →
      let list := s.sweep.restoreList.filter fun k => decide (k ≠ c)
      ∃ t : State, exec i s = .next t.endEvent
        ∧ s.waitingJobStarts t c { fenceHits := (s.circuit c).fenceHits } list
        ∧ (∀ k, k ∈ (s.circuit c).entries → t.mapEntry k = {})
        ∧ (∀ ch, (s.circuit c).channel = some ch → t.boundTo ch = none)
        ∧ Table.get false t.report.owed c = true
        ∧ t.arbiter.fault = ⟨r.addr, .sweep, 0⟩
        ∧ t.directive = { s.directive with
            step := .completing (s.directive.completionWords ⟨.fault, p⟩) s.directive.chain.length }
        ∧ (∀ ch, t.evidenceOf ch =
            if (s.circuit c).channel = some ch then { s.evidenceOf ch with silence := .stopped } else s.evidenceOf ch)
        ∧ t.window = { s.window with workSet := t.window.workSet }
        ∧ (∀ k, Table.get false t.window.workSet k = if k = c then false else Table.get false s.window.workSet k)
        ∧ t.pass = s.pass)

/-- R122, R124: a close sweep read completes. With entries left its word joins the words in hand and the next read is
requested, or held while the posted-write buffer holds a write to that word (R120). The last read of a window circuit
makes the words its swept words and gives its sweep result: NEW with no baseline, UNCHANGED with every word equal,
CHANGED otherwise; a circuit outside the window found CHANGED joins it PENDING and undeclared, with its state as prior
state, and any other outside circuit stays. Then the sweep goes on with the next circuit of its set, whose first read is
requested or held in the same way. R123, R124: the second failure of a close sweep read: a window circuit becomes BROKEN
with cause and sweep result UNREADABLE; a SETTLED circuit outside the window becomes DRIFTED with the cause DRIFT; a
DRIFTED or FAULTED one stays; and the sweep goes on with the next circuit of its set. R113, R125: the result of a
stopped sweep's read is discarded: its completion frees the port, and its second failure also writes the fault record
and raises BUS_FAULT; nothing else changes but that a request held for its sake, or by R120, is then made if no write to
its word is in the buffer (log entry 9). -/
def Obligations.CloseSweepReads : Prop :=
  (∀ (s : State) (r : Request) (set : List Nat) (c p : Nat) (words : List Word) (data : Word),
      s.inProgress .sweep r → r.stale = false → s.arbiter.sweep = none → s.sweep.job = .closeSweep set c p words →
      let old := s.circuit c
      let further := s.connAddr (old.entries.getD p 0)
      let waits := s.pass.buffer.any fun b => decide (b.addr = further)
      let read := words ++ [data]
      let result : SweepResult :=
        if old.baseline = none then .new else if old.baseline = some read then .unchanged else .changed
      let next := set.find? fun k => decide (c < k)
      (p < old.entries.length →
        exec (.closeSweepReadComplete data) s = .next (State.endEvent { s with
          arbiter := { s.arbiter with port := none, sweep := if waits then none else some { addr := further } }
          sweep := { s.sweep with
            job := .closeSweep set c (p + 1) read, held := if waits then some (further, none) else none } }))
      ∧ ∀ n, old.entries.length ≤ p → next = some n →
        ∃ t : State, exec (.closeSweepReadComplete data) s = .next t.endEvent
          ∧ (∀ k, k ≠ c → t.circuit k = s.circuit k)
          ∧ (old.state.inWindow = true →
              t.circuit c = { old with swept := some read, sweepResult := some result }
              ∧ Table.get false t.report.owed c = true)
          ∧ (∀ o, old.state = OutsideState.toState o → result = .changed →
              t.circuit c = { old with
                prior := some o, swept := some read, sweepResult := some .changed, undeclared := true
                state := .pending }
              ∧ Table.get false t.report.owed c = true)
          ∧ (∀ o, old.state = OutsideState.toState o → result ≠ .changed → t.circuit c = old)
          ∧ t.sweep = { s.sweep with job := .closeSweep set n 1 [], held := t.sweep.held }
          ∧ s.firstAccessMade t n none
          ∧ t.window = s.window ∧ t.trace = s.trace ∧ t.journal = s.journal ∧ t.verdict = s.verdict)
  ∧ (∀ (i : Instr) (s : State) (r : Request) (set : List Nat) (c p n : Nat) (words : List Word), failsAccess i →
      s.inProgress .sweep r → r.retry = true → r.stale = false → s.arbiter.sweep = none →
      s.sweep.job = .closeSweep set c p words → (set.find? fun k => decide (c < k)) = some n →
      let old := s.circuit c
      ∃ t : State, exec i s = .next t.endEvent
        ∧ (∀ k, k ≠ c → t.circuit k = s.circuit k)
        ∧ (old.state.inWindow = true →
            t.circuit c = { old with state := .broken, cause := some .unreadable, sweepResult := some .unreadable }
            ∧ Table.get false t.report.owed c = true)
        ∧ (old.state = .settled → t.circuit c = { old with state := .drifted }
            ∧ (s.report.enables.getLsbD 5 = true → t.report.pending.getLsbD 5 = true))
        ∧ ((old.state = .drifted ∨ old.state = .faulted) → t.circuit c = old)
        ∧ t.sweep = { s.sweep with job := .closeSweep set n 1 [], held := t.sweep.held }
        ∧ s.firstAccessMade t n none ∧ t.arbiter.fault = ⟨r.addr, .sweep, 0⟩ ∧ t.window = s.window)
  ∧ (∀ (s : State) (r : Request) (data : Word), s.inProgress .sweep r → r.stale = true →
      (s.sweep.held = none →
        exec (.closeSweepReadComplete data) s = .next (State.endEvent { s with
          arbiter := { s.arbiter with port := none } })
        ∧ ∀ i, failsAccess i → r.retry = true →
            exec i s = .next (State.endEvent { s with
              arbiter := { s.arbiter with port := none, fault := ⟨r.addr, .sweep, 0⟩ }
              report := (s.wantSummary.raise .busFault).report }))
      ∧ ∀ addr word, s.sweep.held = some (addr, word) → s.arbiter.sweep = none →
          let made : Arbiter := { s.arbiter with
            port := none, sweep := some { addr, write := word.map (·, 0xF) } }
          (∀ b, s.pass.buffer = some b → b.addr ≠ addr) →
            exec (.closeSweepReadComplete data) s = .next (State.endEvent { s with
              arbiter := made, sweep := { s.sweep with held := none } })
            ∧ ∀ i, failsAccess i → r.retry = true →
                exec i s = .next (State.endEvent { s with
                  arbiter := { made with fault := ⟨r.addr, .sweep, 0⟩ }, sweep := { s.sweep with held := none }
                  report := (s.wantSummary.raise .busFault).report }))

/-- R112, R125, R135: the last read of the last circuit of a close sweep's set, or its second failure, ends the sweep,
once that circuit is recorded as R122 to R124 have it: a window circuit with its words and result, or BROKEN and
UNREADABLE; a circuit outside the window joining PENDING if found CHANGED, DRIFTED if SETTLED and unreadable, and
otherwise as it was. The job is NONE. With a window circuit, the window enters VERIFYING with the verify limit started
and a WINDOW report owed; every window circuit is then PENDING with no cause and its channel's evidence reset, but one
BROKEN with UNREADABLE keeps its verdict and evidence; every window circuit's channel has its silence timer running with
the full limit and its verdict changes 0; no other circuit or channel changes. R136: with no circuit PENDING the steady
timer starts, and otherwise it is stopped. R136, R143: with no window circuit the window concludes in the same event:
both timers stop, the limit with its full time left, every silence timer is STOPPED and CONCLUDED is raised. A failure
also writes the fault record. -/
def Obligations.CloseSweepEndEntersVerifying : Prop :=
  ∀ (s : State) (r : Request) (set : List Nat) (c p : Nat) (words : List Word),
    s.inProgress .sweep r → r.stale = false → s.sweep.job = .closeSweep set c p words → c < 512 →
    s.window.state = .sweeping → (set.find? fun k => decide (c < k)) = none →
    let old := s.circuit c
    let ends (last : Circuit) (t : State) : Prop :=
      let mid (k : Nat) : Circuit := if k = c then last else s.circuit k
      t.sweep.job = .none ∧ t.report.windowOwed = true
      ∧ t.trace.arrivals = s.trace.arrivals ∧ t.journal = s.journal ∧ t.pass = s.pass
      ∧ ((∃ k, k < 512 ∧ (mid k).state.inWindow = true) →
          t.window = { s.window with state := .verifying }
          ∧ t.verdict.limit = ⟨true, 1000 * s.window.verifyLimit⟩
          ∧ (t.count .pending = 0 → t.verdict.steady = ⟨true, 1000 * s.window.steadyTime⟩)
          ∧ (t.count .pending ≠ 0 → t.verdict.steady = { s.verdict.steady with running := false })
          ∧ (∀ k, k < 512 → (mid k).state.inWindow = true →
              t.circuit k =
                if (mid k).isUnreadable then { mid k with verdictChanges := 0 }
                else { mid k with state := .pending, cause := none, verdictChanges := 0 })
          ∧ (∀ k, (512 ≤ k ∨ (mid k).state.inWindow = false) → t.circuit k = mid k)
          ∧ (s.channelsAgree → ∀ ch k, k < 512 → s.boundTo ch = some k → (mid k).state.inWindow = true →
              t.evidenceOf ch =
                if (mid k).isUnreadable then { s.evidenceOf ch with silence := .running s.trace.silenceLimit }
                else { candidate := none, run := 0, accepted := none, power := none, dark := false, gap := false
                       silence := .running s.trace.silenceLimit })
          ∧ (s.channelsAgree → ∀ ch, (∀ k, s.boundTo ch = some k → (mid k).state.inWindow = false) →
              t.evidenceOf ch = s.evidenceOf ch))
      ∧ ((∀ k, k < 512 → (mid k).state.inWindow = false) →
          t.window = { s.window with state := .concluded }
          ∧ t.verdict.limit = ⟨false, 1000 * s.window.verifyLimit⟩
          ∧ t.verdict.steady = { s.verdict.steady with running := false }
          ∧ (∀ ch, t.evidenceOf ch = { s.evidenceOf ch with silence := .stopped })
          ∧ (s.report.enables.getLsbD 0 = true → t.report.pending.getLsbD 0 = true)
          ∧ (∀ k, t.circuit k = mid k) ∧ (last = old → t.store = s.store))
    (∀ data, old.entries.length ≤ p →
      let read := words ++ [data]
      let result : SweepResult :=
        if old.baseline = none then .new else if old.baseline = some read then .unchanged else .changed
      ∃ t : State, exec (.closeSweepReadComplete data) s = .next t.endEvent
        ∧ (old.state.inWindow = true → ends { old with swept := some read, sweepResult := some result } t)
        ∧ (∀ o, old.state = OutsideState.toState o →
            (result = .changed →
              ends { old with
                prior := some o, swept := some read, sweepResult := some .changed, undeclared := true
                state := .pending } t)
            ∧ (result ≠ .changed → ends old t)))
    ∧ ∀ i, failsAccess i → r.retry = true →
        ∃ t : State, exec i s = .next t.endEvent ∧ t.arbiter.fault = ⟨r.addr, .sweep, 0⟩
          ∧ (old.state.inWindow = true →
              ends { old with
                state := .broken, cause := some .unreadable, sweepResult := some .unreadable } t)
          ∧ (old.state = .settled → ends { old with state := .drifted } t)
          ∧ (old.state = .drifted ∨ old.state = .faulted → ends old t)

/-- R126: a drift sweep read completes. At a circuit no longer SETTLED, whatever became of it, the word is discarded and
the circuit left as it is. At a SETTLED circuit a word equal to its baseline word changes nothing, and with entries left
the next one's read is requested, or held while the posted-write buffer holds a write to that word (R120); a different
one makes the circuit DRIFTED with the cause DRIFT. After a circuit the sweep comes to the next SETTLED circuit above
it, whose first read is requested or held in the same way. R127, R55, R56: with none above it the sweep ends: RUNNING
becomes NONE and the journal OVERRUN flag clears; RUNNING_AND_OWED becomes OWED, and in QUIET with fewer than 192
records the owed sweep is requested in the same event. R119: then the first waiting job starts, that owed sweep among
them, as `waitingJobStarts` spells it. R126: the second failure of a read acts at a SETTLED circuit as a word that
differs, and at any other leaves the circuit as it is, with the failure recorded and BUS_FAULT raised. -/
def Obligations.DriftSweepReadCompared : Prop :=
  ∀ (s : State) (r : Request) (c p : Nat) (data : Word),
    s.inProgress .sweep r → r.stale = false → s.arbiter.sweep = none → s.sweep.job = .driftSweep c p →
    let old := s.circuit c
    let due := s.window.state = .quiet ∧ s.journal.occupancy < 192
    let ended : State := { s with
      journal :=
        if s.journal.demand = .running then { s.journal with demand := .none, overrun := none }
        else if s.journal.demand = .runningAndOwed then { s.journal with demand := .owed }
        else s.journal
      sweep := { s.sweep with
        driftRequest := s.sweep.driftRequest || decide (s.journal.demand = .runningAndOwed ∧ due) } }
    let passes (last : Circuit) (t : State) : Prop :=
      (∀ n, c < n → n < 512 → (s.circuit n).state = .settled →
          (∀ k, c < k → k < n → (s.circuit k).state ≠ .settled) →
          (∀ k, t.circuit k = if k = c then last else s.circuit k) ∧ t.journal = s.journal
          ∧ t.sweep = { s.sweep with job := .driftSweep n 1, held := t.sweep.held }
          ∧ s.firstAccessMade t n none)
      ∧ ((∀ k, c < k → k < 512 → (s.circuit k).state ≠ .settled) →
          ended.waitingJobStarts t c last s.sweep.restoreList)
      ∧ t.window = s.window ∧ t.trace = s.trace ∧ t.pass = s.pass
    let failing (i : Instr) : Prop :=
      exec i s = exec (.driftSweepReadComplete data) { s with
        arbiter := { s.arbiter with fault := ⟨r.addr, .sweep, 0⟩ }
        report := (s.wantSummary.raise .busFault).report }
    (old.state ≠ .settled →
      (∃ t : State, exec (.driftSweepReadComplete data) s = .next t.endEvent ∧ passes old t)
      ∧ ∀ i, failsAccess i → r.retry = true → failing i)
    ∧ ∀ base, old.state = .settled → old.baseline = some base →
        (base.getD (p - 1) 0 = data → p < old.entries.length →
          let further := s.connAddr (old.entries.getD p 0)
          let waits := s.pass.buffer.any fun b => decide (b.addr = further)
          exec (.driftSweepReadComplete data) s = .next (State.endEvent { s with
            arbiter := { s.arbiter with port := none, sweep := if waits then none else some { addr := further } }
            sweep := { s.sweep with
              job := .driftSweep c (p + 1), held := if waits then some (further, none) else none } }))
        ∧ (base.getD (p - 1) 0 = data → old.entries.length ≤ p →
          ∃ t : State, exec (.driftSweepReadComplete data) s = .next t.endEvent ∧ passes old t)
        ∧ (base.getD (p - 1) 0 ≠ data →
          (∃ t : State, exec (.driftSweepReadComplete data) s = .next t.endEvent
            ∧ passes { old with state := .drifted } t ∧ Table.get false t.report.owed c = true
            ∧ (s.report.enables.getLsbD 5 = true → t.report.pending.getLsbD 5 = true))
          ∧ ∀ i, failsAccess i → r.retry = true → failing i)

/-- R130, R131: a restore write completes: with entries left the next entry's baseline word is written with all four
lanes: the write is requested, or, by R120, held with its address and word while the posted-write buffer holds a write
to that address. After the last the circuit becomes SETTLED with restore outcome DONE and no verdict cause, keeping its
baseline, a CIRCUIT report is owed, and RESTORE_DONE is raised. The second failure of the write at position p returns it
to its earlier state with outcome FAILED at p and its cause kept. R119: at either end the first waiting job starts, in
the order CAPTURE, DRIFT_SWEEP, RESTORE, and its request clears, as `waitingJobStarts` spells it: the capture; else the
drift sweep, at the first SETTLED circuit, the demand OWED becoming RUNNING; else the head of the restore list, which
becomes RESTORING; with none waiting the job is NONE. The others keep waiting. Its first access is requested, or held by
R120. -/
def Obligations.RestoreWritesAndEnds : Prop :=
  ∀ (s : State) (r : Request) (c p : Nat) (earlier : OutsideState),
    s.inProgress .sweep r → r.stale = false → s.arbiter.sweep = none → s.sweep.job = .restore c p earlier →
    let old := s.circuit c
    let next := s.connAddr (old.entries.getD p 0)
    let word := (old.baseline.getD []).getD p 0
    let waits := s.pass.buffer.any fun b => decide (b.addr = next)
    let ends (last : Circuit) (t : State) : Prop :=
      s.waitingJobStarts t c last s.sweep.restoreList ∧ Table.get false t.report.owed c = true
      ∧ (s.report.enables.getLsbD 8 = true → t.report.pending.getLsbD 8 = true)
      ∧ t.window = s.window ∧ t.trace = s.trace ∧ t.pass = s.pass
    (p < old.entries.length →
      exec .restoreWriteComplete s = .next (State.endEvent { s with
        arbiter := { s.arbiter with
          port := none, sweep := if waits then none else some { addr := next, write := some (word, 0xF) } }
        sweep := { s.sweep with
          job := .restore c (p + 1) earlier, held := if waits then some (next, some word) else none } }))
    ∧ (old.entries.length ≤ p →
      ∃ t : State, exec .restoreWriteComplete s = .next t.endEvent
        ∧ ends { old with state := .settled, restoreOutcome := some .done, cause := none } t)
    ∧ (∀ i, failsAccess i → r.retry = true →
      ∃ t : State, exec i s = .next t.endEvent ∧ t.arbiter.fault = ⟨r.addr, .sweep, 0⟩
        ∧ ends { old with state := earlier.toState, restoreOutcome := some (.failed p) } t)

/-! ### The Report Unit -/

/-- R164, R165, R166, R167, R173: the report writer, free to choose (IDLE, the ring not full, a layout accepted, the summary
writer not in WRITING, and no rewrite about to start), starts the WINDOW report if it is owed, else the CHANGE
report of the head record if that is classified, else the CIRCUIT report of the first owed circuit above the last one
reported, wrapping after 511; it clears the mark, and the fence hits of the circuit reported, and requests word 0 at
the report's place in the ring. The four words hold the fields of R167 as R173 places them, the other bits zero: an
absent power or deviation is −32768, an absent enumerated field code 0, an owner of none 512. Without one of the
conditions, or with nothing owed, no record starts, and nothing changes but that a rewrite that is due starts. -/
def Obligations.ReportChosenInOrder : Prop :=
  (∀ (s : State) (l : Layout), s.inReset = false → s.layout = some l → s.report.writer = .idle →
    (s.report.producer - s.report.consumer).toNat ≠ l.reportSize → s.report.summary.isWriting = false →
    ¬(s.report.summary = .idle ∧ s.report.wanted = true) →
    let base := l.reportBase + 16 * (s.report.producer.toNat % l.reportSize)
    let starts (item : RecordItem) (words : List Word) (t : State) : Prop :=
      t.report.writer = .writing item base ((List.range 4).zip words) false
      ∧ t.arbiter = { s.arbiter with report := some { addr := base, write := some (words.getD 0 0, 0xF) } }
    let head (kind : BitVec 2) : Word := 0#14 ++ kind ++ s.report.producer
    (s.report.windowOwed = true →
      let w := s.window
      let state := [.noLayout, .quiet, .opened, .settling, .sweeping, .verifying, .concluded].idxOf w.state
      ∃ t : State, exec .reportWriteStart s = .next t.endEvent
        ∧ starts .window [head 1,
            0#10 ++ BitVec.ofBool w.overtime ++ BitVec.ofBool w.overrun ++ BitVec.ofNat 4 state ++ w.number,
            0#22 ++ BitVec.ofNat 10 (Table.marked w.workSet).length,
            BitVec.ofNat 32 s.verdict.limit.remaining] t
        ∧ t = { s with
            arbiter := t.arbiter, report := { s.report with windowOwed := false, writer := t.report.writer } })
    ∧ (∀ j rest, s.report.windowOwed = false → s.journal.judged = j :: rest →
      let r := j.record
      let phase := [.outside, .opened, .closed].idxOf r.phase
      let judgement := [.declared, .undeclared, .drift, .fenced, .stray].idxOf j.classification + 1
      ∃ t : State, exec .reportWriteStart s = .next t.endEvent
        ∧ starts .change [head 3, r.value, 0#3 ++ BitVec.ofNat 13 r.index ++ r.seq,
            0#6 ++ BitVec.ofNat 10 (j.owner.getD 512) ++ 0#1 ++ BitVec.ofNat 3 judgement ++ 0#1
              ++ BitVec.ofBool r.fenced ++ BitVec.ofNat 2 phase ++ r.master ++ r.lanes] t
        ∧ t = { s with arbiter := t.arbiter, report := { s.report with writer := t.report.writer } })
    ∧ (∀ n, n < 512 → s.report.windowOwed = false → s.journal.judged = [] →
      (∀ k, k < n → Table.get false s.report.owed ((s.report.lastReported + 1 + k) % 512) = false) →
      Table.get false s.report.owed ((s.report.lastReported + 1 + n) % 512) = true →
      let c := (s.report.lastReported + 1 + n) % 512
      let r := s.circuit c
      let power := r.channel.bind fun ch => (s.evidenceOf ch).power
      let deviation : Option Int := power.bind fun p => r.reference.map fun q => p - q
      let absent : Int := -32768
      let state := [.empty, .loading, .settled, .drifted, .faulted, .restoring, .held, .pending, .confirmed,
        .degraded, .broken, .silent].idxOf r.state
      let cause := [none, some .matched, some .powerLow, some .powerHigh, some .tagMismatch, some .unequipped,
        some .dark, some .noArrivals, some .noEvidence, some .unreadable].idxOf r.cause
      let entry := [none, some .good, some .bad, some .unknown].idxOf r.entryCondition
      let result := [none, some .unchanged, some .changed, some .new, some .unreadable].idxOf r.sweepResult
      let outcome : Nat := match r.restoreOutcome with
        | none => 0
        | some .done => 1
        | some (.failed position) => 1 + position
      ∃ t : State, exec .reportWriteStart s = .next t.endEvent
        ∧ starts (.circuit c r.fenceHits) [head 2,
            BitVec.ofBool r.undeclared ++ 0#2 ++ BitVec.ofNat 4 outcome ++ BitVec.ofNat 3 result
              ++ BitVec.ofNat 2 entry ++ BitVec.ofNat 4 cause ++ BitVec.ofNat 4 state ++ 0#3 ++ BitVec.ofNat 9 c,
            BitVec.ofInt 16 (deviation.getD absent) ++ BitVec.ofInt 16 (power.getD absent),
            0#8 ++ BitVec.ofNat 8 r.verdictChanges ++ BitVec.ofNat 8 r.fenceHits
              ++ BitVec.ofNat 8 r.changeCount] t
        ∧ t = { s with
            store := { s.store with circuits := t.store.circuits }
            arbiter := t.arbiter
            report := { s.report with
              owed := t.report.owed, lastReported := c, writer := t.report.writer } }
        ∧ (∀ k, t.circuit k = if k = c then { r with fenceHits := 0 } else s.circuit k)
        ∧ ∀ k, Table.get false t.report.owed k = if k = c then false else Table.get false s.report.owed k))
  ∧ ∀ s : State, s.inReset = false →
      s.layout = none ∨ s.report.writer ≠ .idle
        ∨ (∃ l, s.layout = some l ∧ (s.report.producer - s.report.consumer).toNat = l.reportSize)
        ∨ s.report.summary.isWriting = true ∨ (s.report.summary = .idle ∧ s.report.wanted = true)
        ∨ (s.report.windowOwed = false ∧ s.journal.judged = []
            ∧ ∀ c, c < 512 → Table.get false s.report.owed c = false) →
      exec .reportWriteStart s = .next s.endEvent

/-- R50, R166: a word of a record in flight completes: the next word is requested at its address. The last one, unless a
LAYOUT has overtaken the record, raises the producer index by one, wrapping after 65535, and returns the writer to IDLE;
a CHANGE record is released from the head of the journal in the same event, the rest keeping their order. An overtaken
record leaves the producer index, and nothing is put back at its end, since the LAYOUT has put it back: the model's
reading of R166 (log entry 13). A HOLD_OFF that ends returns the writer to IDLE. R55: a release in QUIET that finds a
drift sweep owed and leaves fewer than 192 records requests it: with a job running the request waits; with the engine
idle and no capture requested it starts at the first SETTLED circuit, and with none it ends at once. The second failure
of a word abandons the record: the producer index stays, the writer is in HOLD_OFF for 1 ms, and, unless a LAYOUT has
overtaken it, a WINDOW report is owed again, a CIRCUIT report is owed again with the fence hits it took added back,
saturating at 255, and a CHANGE record stays at the journal's head. -/
def Obligations.ReportWordCompletes : Prop :=
  ∀ (s : State) (r : Request) (item : RecordItem) (base : Nat) (done : Nat × Word) (left : List (Nat × Word))
    (overtaken : Bool),
    (s.inProgress .report r → s.report.writer = .writing item base (done :: left) overtaken →
      (∀ n w rest, left = (n, w) :: rest →
        exec .reportWordComplete s = .next (State.endEvent { s with
          arbiter := { s.arbiter with
            port := none, report := some { addr := base + 4 * n, write := some (w, 0xF) } }
          report := { s.report with writer := .writing item base left overtaken } }))
      ∧ (left = [] → overtaken = true →
        exec .reportWordComplete s = .next (State.endEvent { s with
          arbiter := { s.arbiter with port := none }, report := { s.report with writer := .idle } }))
      ∧ (left = [] → overtaken = false →
        let journal := { s.journal with
          judged := if item = .change then s.journal.judged.tail else s.journal.judged }
        let report := { s.report with writer := .idle, producer := s.report.producer + 1, wanted := true }
        let freed := { s.arbiter with port := none }
        let due := item = .change ∧ s.journal.demand = .owed ∧ s.window.state = .quiet
          ∧ s.journal.judged.tail.length + s.journal.waiting.length < 192
        (¬ due → exec .reportWordComplete s = .next (State.endEvent { s with arbiter := freed, journal, report }))
        ∧ (due → s.sweep.job ≠ .none →
            exec .reportWordComplete s = .next (State.endEvent { s with
              arbiter := freed, journal, report, sweep := { s.sweep with driftRequest := true } }))
        ∧ (due → s.sweep.job = .none → s.sweep.captureRequest = none →
            (∀ n, n < 512 → (s.circuit n).state = .settled → (∀ k, k < n → (s.circuit k).state ≠ .settled) →
              s.arbiter.sweep = none →
              let first := s.connAddr ((s.circuit n).entries.getD 0 0)
              let waits := s.pass.buffer.any fun b => decide (b.addr = first)
              exec .reportWordComplete s = .next (State.endEvent { s with
                arbiter := { freed with sweep := if waits then none else some { addr := first } }
                journal := { journal with demand := .running }
                report
                sweep := { s.sweep with
                  driftRequest := false, job := .driftSweep n 1
                  held := if waits then some (first, none) else none } }))
            ∧ ((∀ k, k < 512 → (s.circuit k).state ≠ .settled) → s.sweep.restoreList = [] →
              exec .reportWordComplete s = .next (State.endEvent { s with
                arbiter := freed, journal := { journal with demand := .none, overrun := none }
                report, sweep := { s.sweep with driftRequest := false } }))))
      ∧ ∀ i, failsAccess i → r.retry = true → r.stale = false →
          let told := (s.wantSummary.raise .busFault).report
          ∃ t : State, exec i s = .next t.endEvent
            ∧ t = { s with
                arbiter := { s.arbiter with port := none, fault := ⟨r.addr, .report, 0⟩ }
                store := { s.store with circuits := t.store.circuits }
                report := { told with
                  writer := .holdOff 1
                  windowOwed := s.report.windowOwed || decide (item = .window ∧ overtaken = false)
                  owed := t.report.owed } }
            ∧ (∀ k hits, item = .circuit k hits → overtaken = false →
                (∀ c, t.circuit c =
                  if c = k then { s.circuit k with fenceHits := min 255 ((s.circuit k).fenceHits + hits) }
                  else s.circuit c)
                ∧ ∀ c, Table.get false t.report.owed c = (Table.get false s.report.owed c || decide (c = k)))
            ∧ ((∀ k hits, item ≠ .circuit k hits) ∨ overtaken = true →
                t.store = s.store ∧ t.report.owed = s.report.owed))
    ∧ ∀ n, s.inReset = false → s.report.writer = .holdOff n →
        exec .reportHoldOffExpiry s = .next (State.endEvent { s with report := { s.report with writer := .idle } })

/-- R168, R173: with the summary writer IDLE, summary wanted, a layout accepted and the report writer not in WRITING a
summary rewrite starts, at the end of the event that brings this about and by SUMMARY_REWRITE_START alike: the generation
rises by one, wanted and every raised-since-snapshot mark become no, the causes pending are the snapshot, word 0 is
requested at the summary base, and the fifteen words are taken from the state as it stands: words 0 to 12, 14 and 15,
never the consumer word, each field in its place and every other bit zero. Without one of the conditions nothing starts.
R168, R169: a word of the rewrite completes: the next word is requested; when the attention word, word 2, is the one that
completes, each cause of the snapshot not raised since has its unseen mark cleared; the last word sends the writer to
HOLD_OFF for 1 ms, whose end returns it to IDLE. The second failure of a word ends the rewrite: the writer is in HOLD_OFF
and the summary wanted again. -/
def Obligations.SummaryRewritten : Prop :=
  (∀ (s : State) (l : Layout), s.layout = some l → s.report.summary = .idle → s.report.wanted = true →
      s.report.writer.isWriting = false →
      let g := s.report.generation + 1
      let j := s.journal
      let n := j.judged.length + j.waiting.length
      let f := s.arbiter.fault
      let counts (a b : CircuitState) : Word := BitVec.ofNat 16 (s.count b) ++ BitVec.ofNat 16 (s.count a)
      let window := [.noLayout, .quiet, .opened, .settling, .sweeping, .verifying, .concluded].idxOf s.window.state
      let phase := j.overrun.elim 0 fun p => [.outside, .opened, .closed].idxOf p
      let kind := [.none, .read, .write, .directive, .sweep, .report].idxOf f.kind
      let words : List (Nat × Word) :=
        [(0, 0#16 ++ g),
          (1, 0#6 ++ BitVec.ofBool s.report.rejected ++ BitVec.ofBool (decide (s.store.mode = .guard)) ++ 0#2
            ++ BitVec.ofBool s.window.overtime ++ BitVec.ofBool s.window.overrun ++ BitVec.ofNat 4 window
            ++ s.window.number),
          (2, 0#23 ++ s.report.pending), (3, s.report.consumer ++ s.report.producer),
          (4, counts .empty .loading), (5, counts .settled .drifted), (6, counts .faulted .restoring),
          (7, counts .held .pending), (8, counts .confirmed .degraded), (9, counts .broken .silent),
          (10, 0#2 ++ BitVec.ofNat 6 s.trace.arrivals.length ++ 0#6 ++ BitVec.ofNat 2 phase
            ++ BitVec.ofBool j.overrun.isSome ++ BitVec.ofBool (decide (n = 384))
            ++ BitVec.ofBool (decide (192 ≤ n)) ++ BitVec.ofBool (decide (n = 0)) ++ 0#3 ++ BitVec.ofNat 9 n),
          (11, BitVec.ofNat 32 f.addr),
          (12, 0#12 ++ BitVec.ofNat 4 s.sweep.restoreList.length ++ 0#8 ++ f.master ++ 0#1 ++ BitVec.ofNat 3 kind),
          (14, 0), (15, 0#16 ++ g)]
      let started : State := { s with
        report := { s.report with
          generation := g, wanted := false, raised := 0
          summary := .writing l.summaryBase words s.report.pending }
        arbiter := { s.arbiter with report := some { addr := l.summaryBase, write := some (0#16 ++ g, 0xF) } } }
      s.endEvent = started ∧ (s.inReset = false → exec .summaryRewriteStart s = .next started))
  ∧ (∀ s : State,
      s.layout = none ∨ s.report.summary ≠ .idle ∨ s.report.wanted = false ∨ s.report.writer.isWriting = true →
      s.endEvent = s ∧ exec .summaryRewriteStart s = .next s)
  ∧ (∀ (s : State) (r : Request) (base k : Nat) (w : Word) (left : List (Nat × Word)) (snapshot : BitVec 9),
      s.inProgress .report r → s.report.summary = .writing base ((k, w) :: left) snapshot →
      (∃ t : State, exec .summaryWordComplete s = .next t.endEvent
        ∧ t = { s with
            arbiter := { s.arbiter with
              port := none
              report := match left with
                | [] => s.arbiter.report
                | (n, x) :: _ => some { addr := base + 4 * n, write := some (x, 0xF) } }
            report := { s.report with
              unseen := t.report.unseen
              summary := if left = [] then .holdOff 1 else .writing base left snapshot } }
        ∧ ∀ c : Cause, t.report.unseen.getLsbD c.bit
            = (s.report.unseen.getLsbD c.bit
                && !(decide (k = 2) && snapshot.getLsbD c.bit && !s.report.raised.getLsbD c.bit)))
      ∧ ∀ i, failsAccess i → r.retry = true → r.stale = false → s.report.writer.isWriting = false →
          exec i s = .next (State.endEvent { s with
            arbiter := { s.arbiter with port := none, fault := ⟨r.addr, .report, 0⟩ }
            report := { (s.wantSummary.raise .busFault).report with summary := .holdOff 1 } }))
  ∧ ∀ (s : State) (n : Nat), s.inReset = false → s.report.summary = .holdOff n →
      exec .summaryHoldOffExpiry s = .next (State.endEvent { s with report := { s.report with summary := .idle } })

/-- R169: a cause raised with its enable set is pending, unseen and raised since the snapshot, and gives a pulse of 25
periods exactly if no cause was pending; a change of the pending set makes the summary wanted; nothing else changes.
With its enable clear it changes nothing. The end of the pulse takes ATTN low and changes nothing else. -/
def Obligations.AttentionRaisedAndPulseEnds : Prop :=
  ∀ (s : State) (c : Cause),
    (s.report.enables.getLsbD c.bit = false → s.raise c = s)
    ∧ (s.report.enables.getLsbD c.bit = true →
        (∀ k : Cause,
          (s.raise c).report.pending.getLsbD k.bit = (s.report.pending.getLsbD k.bit || decide (k = c))
          ∧ (s.raise c).report.unseen.getLsbD k.bit = (s.report.unseen.getLsbD k.bit || decide (k = c))
          ∧ (s.raise c).report.raised.getLsbD k.bit = (s.report.raised.getLsbD k.bit || decide (k = c)))
        ∧ (s.raise c).report.attn = (if s.report.pending = 0 then some 25 else s.report.attn)
        ∧ (s.raise c).report.wanted = (s.report.wanted || !s.report.pending.getLsbD c.bit)
        ∧ s.raise c = { s with report := { s.report with
            pending := (s.raise c).report.pending, unseen := (s.raise c).report.unseen
            raised := (s.raise c).report.raised, attn := (s.raise c).report.attn
            wanted := (s.raise c).report.wanted } })
    ∧ (s.inReset = false →
        exec .attnPulseEnd s = .next (State.endEvent { s with report := { s.report with attn := none } }))

/-! ### What every step keeps -/

/-- Every step keeps every table of the part in canonical form, so that equal tables are equal data. -/
def Obligations.TablesStayCanonical : Prop :=
  ∀ s t : State, s.tablesCanonical → step s = .next t → t.tablesCanonical

/-- R10, R11, R13: every step, of any command or of the clock, keeps the entry map's owners the circuits that list
them, the channel map the circuits that have the channels, and every fenced flag equal to the fence rule under
the mode in force: set exactly where the owner is PENDING, CONFIRMED, DEGRADED, BROKEN, SILENT or RESTORING, or the mode is
GUARD and the owner LOADING, SETTLED, DRIFTED or FAULTED. -/
def Obligations.MapsFollowCircuits : Prop :=
  ∀ s t : State, s.entriesAgree → s.channelsAgree → s.fencesAgree → step s = .next t →
    t.entriesAgree ∧ t.channelsAgree ∧ t.fencesAgree
    ∧ ∀ i, (t.mapEntry i).fenced = true ↔ ∃ c, (t.mapEntry i).owner = some c
        ∧ ((t.circuit c).state ∈ [.pending, .confirmed, .degraded, .broken, .silent, .restoring]
          ∨ (t.store.mode = .guard ∧ (t.circuit c).state ∈ [.loading, .settled, .drifted, .faulted]))

/-- R16, R171: where every circuit number the part holds lies in 0 … 511 and each count is the number of circuits in
its state, every step keeps both so, and ASSURED high exactly while its condition holds. -/
def Obligations.CountsAndAssuredFollow : Prop :=
  ∀ s t : State, s.numbersInRange → s.countsAgree → s.assuredAgrees → step s = .next t →
    t.numbersInRange ∧ t.countsAgree ∧ t.assuredAgrees

/-- R70, R86, R89, R91: every step keeps every run count at most 15, a candidate present exactly with a run above 0,
the smoothed power absent while the dark flag is set, and every smoothed and reference power in −5000 … +1000. -/
def Obligations.EvidenceStaysSound : Prop :=
  ∀ s t : State, s.evidenceSound → step s = .next t → t.evidenceSound

/-- R8, R41, R48, R49, R66, R118: every step keeps the saturating counts at most 255, the starvation count at most 8,
the arrival queue at most 32 long, the restore list at most 8 long and its circuits distinct, and the journal at
most 384 records whose sequence numbers run consecutively up to the next. -/
def Obligations.BoundsAndJournalOrderKept : Prop :=
  ∀ s t : State, s.withinBounds → s.journalInOrder → step s = .next t → t.withinBounds ∧ t.journalInOrder

/-- Section 6.1, R79, R106, R109, R141, R143: every step keeps the window NO_LAYOUT exactly before the first layout and
SWEEPING exactly while a close sweep runs, the steady timer stopped but in VERIFYING with no circuit PENDING, no
circuit PENDING in CONCLUDED, and each timer of the window stopped outside its window state. -/
def Obligations.WindowStatesAgree : Prop :=
  ∀ s t : State, s.numbersInRange → s.countsAgree → s.windowAgrees → s.verdictsSettled → s.timersAgree →
    step s = .next t → t.windowAgrees ∧ t.verdictsSettled ∧ t.timersAgree

/-- R26, R35, R56, R165, R168: every step keeps DRAIN_WAIT to a full posted-write buffer and to the words of a landing
slot, HOLD and READ_OUT to an empty buffer, the two writers of the Report Unit never both in WRITING, a drift sweep
demanded only in an overrun episode, in QUIET the journal OVERRUN flag set exactly while one is demanded, and no summary
rewrite due that has not started. -/
def Obligations.BlockStepsStayConsistent : Prop :=
  ∀ s t : State, s.passConsistent → s.oneWriter → s.overrunAgrees → s.summaryDue = false → step s = .next t →
    t.passConsistent ∧ t.oneWriter ∧ t.overrunAgrees ∧ t.summaryDue = false

/-- What only certain commands change, over all commands but RESET and RESET_END: the layout only a LAYOUT (R161), the
mode and the enables only a SET_POLICY (R162), the window's number and times only an OPEN (R101), a circuit's tag,
parameters, entries and channel only a LOAD, a DROP or a failed capture (R4, R17, R20), the fault record only a failure
(R46), the starvation count only a grant (R41); a journal record is added only where a write may be accepted (R32),
classified only by CLASSIFY and released only by a record's last word (R50); a pending cause is taken away only by a
forwarded read (R170), an unseen mark only by a word of the rewrite (R169); the generation only rises, by one, with the
start of a rewrite, which leaves the summary no longer wanted (R168). -/
def Obligations.OnlyTheseCommandsChange : Prop :=
  ∀ (c : Instr) (s t : State), c ≠ .reset → (∀ d b, c ≠ .resetEnd d b) → exec c s = .next t →
    t.inReset = s.inReset ∧ t.straps = s.straps ∧ t.prescale = s.prescale
      ∧ (c ≠ .layout → t.layout = s.layout)
      ∧ (c ≠ .setPolicy → t.store.mode = s.store.mode ∧ t.report.enables = s.report.enables)
      ∧ (c ≠ .openWindow →
          t.window.number = s.window.number ∧ t.window.settleTime = s.window.settleTime
          ∧ t.window.verifyLimit = s.window.verifyLimit ∧ t.window.steadyTime = s.window.steadyTime
          ∧ t.trace.silenceLimit = s.trace.silenceLimit)
      ∧ (c ≠ .load → c ≠ .drop → ¬ failsAccess c →
          (∀ k, (t.circuit k).tag = (s.circuit k).tag ∧ (t.circuit k).persistence = (s.circuit k).persistence
            ∧ (t.circuit k).tolerance = (s.circuit k).tolerance ∧ (t.circuit k).floor = (s.circuit k).floor
            ∧ (t.circuit k).shift = (s.circuit k).shift ∧ (t.circuit k).entries = (s.circuit k).entries
            ∧ (t.circuit k).channel = (s.circuit k).channel)
          ∧ (∀ i, (t.mapEntry i).owner = (s.mapEntry i).owner) ∧ ∀ ch, t.boundTo ch = s.boundTo ch)
      ∧ (¬ failsAccess c → t.arbiter.fault = s.arbiter.fault)
      ∧ (c ≠ .portGrant → t.arbiter.starvation = s.arbiter.starvation)
      ∧ (¬ mayAccept c → t.journal.nextSeq = s.journal.nextSeq)
      ∧ (¬ mayAccept c → c ≠ .classify → t.journal.waiting = s.journal.waiting)
      ∧ (c ≠ .classify → c ≠ .reportWordComplete → t.journal.judged = s.journal.judged)
      ∧ (c ≠ .layout → c ≠ .reportWordComplete → t.report.producer = s.report.producer)
      ∧ (c ≠ .reportWriteStart → t.report.lastReported = s.report.lastReported)
      ∧ (t.report.generation = s.report.generation
          ∨ (t.report.generation = s.report.generation + 1 ∧ t.report.wanted = false
              ∧ t.report.summary.isWriting = true))
      ∧ ((∀ d, c ≠ .forwardedReadComplete d) →
          ∀ k : Cause, s.report.pending.getLsbD k.bit = true → t.report.pending.getLsbD k.bit = true)
      ∧ (c ≠ .summaryWordComplete →
          ∀ k : Cause, s.report.unseen.getLsbD k.bit = true → t.report.unseen.getLsbD k.bit = true)

/-- Every property that the statements above say a step keeps holds at the reset state. -/
def Obligations.ResetMeetsInvariants : Prop :=
  State.reset.tablesCanonical ∧ State.reset.entriesAgree ∧ State.reset.channelsAgree ∧ State.reset.fencesAgree
    ∧ State.reset.numbersInRange ∧ State.reset.countsAgree ∧ State.reset.assuredAgrees
    ∧ State.reset.evidenceSound ∧ State.reset.withinBounds ∧ State.reset.journalInOrder
    ∧ State.reset.windowAgrees ∧ State.reset.verdictsSettled ∧ State.reset.timersAgree
    ∧ State.reset.passConsistent ∧ State.reset.oneWriter ∧ State.reset.overrunAgrees
    ∧ State.reset.summaryDue = false
end

