-- ==== Sys2Proof/Laws/Table.lean ====
section
/-!
SUPPORT. The laws of the tables of the part: reading after writing, and that writing keeps the canonical form, in which
equal tables are equal data.
-/

namespace Sys2Proof.Machine

variable {α : Type}

/-! ### Reading after writing -/

/-- The empty table reads as the reset value everywhere. -/
@[simp] theorem Table.get_nil (d : α) (k : Nat) : Table.get d [] k = d := rfl

/-- Erasing an entry leaves every other one. -/
theorem Table.get_erase_ne (d : α) (t : Table α) {j k : Nat} (h : j ≠ k) :
    Table.get d (Table.erase k t) j = Table.get d t j := by
  induction t with
  | nil => rfl
  | cons cell rest ih =>
    obtain ⟨i, v⟩ := cell
    by_cases hik : i = k
    · subst hik
      have hji : i ≠ j := fun e => h e.symm
      simpa [Table.erase, Table.get, hji] using ih
    · have hf : Table.erase k ((i, v) :: rest) = (i, v) :: Table.erase k rest := by simp [Table.erase, hik]
      rw [hf]
      simp [Table.get, ih]

/-- An erased entry reads as the reset value. -/
theorem Table.get_erase_self (d : α) (t : Table α) (k : Nat) : Table.get d (Table.erase k t) k = d := by
  induction t with
  | nil => rfl
  | cons cell rest ih =>
    obtain ⟨i, v⟩ := cell
    by_cases hik : i = k
    · simpa [Table.erase, hik] using ih
    · have hf : Table.erase k ((i, v) :: rest) = (i, v) :: Table.erase k rest := by simp [Table.erase, hik]
      rw [hf]
      simp [Table.get, hik, ih]

/-- An entry listed in a table that lists none under its number reads as listed. -/
theorem Table.get_insert (d : α) (t : Table α) (k : Nat) (v : α) (j : Nat)
    (free : ∀ cell ∈ t, cell.1 ≠ k) : Table.get d (Table.insert k v t) j = if k = j then v else Table.get d t j := by
  induction t with
  | nil => simp [Table.insert, Table.get]
  | cons cell rest ih =>
    obtain ⟨i, w⟩ := cell
    have hik : i ≠ k := free (i, w) (by simp)
    have ih' := ih fun c hc => free c (by simp [hc])
    by_cases hlt : k < i
    · simp [Table.insert, hlt, Table.get]
    · by_cases hij : i = j
      · subst hij
        simp [Table.insert, hlt, Table.get, hik.symm]
      · simp [Table.insert, hlt, Table.get, hij, ih']

/-- What is read after one entry has been written. -/
@[simp] theorem Table.get_set [DecidableEq α] (d : α) (t : Table α) (k : Nat) (v : α) (j : Nat) :
    Table.get d (Table.set d t k v) j = if j = k then v else Table.get d t j := by
  unfold Table.set
  by_cases hv : v = d
  · by_cases hjk : j = k
    · simp [hv, hjk, Table.get_erase_self]
    · simp [hv, hjk, Table.get_erase_ne d t hjk]
  · have free : ∀ cell ∈ Table.erase k t, cell.1 ≠ k := by
      intro cell hc
      simpa using (List.mem_filter.mp hc).2
    by_cases hjk : j = k
    · subst hjk
      simp [hv, Table.get_insert d _ j v j free]
    · have hkj : k ≠ j := fun e => hjk e.symm
      simp [hv, Table.get_insert d _ k v j free, hjk, hkj, Table.get_erase_ne d t hjk]

/-- A number that is not listed reads as the reset value. -/
theorem Table.get_unlisted (d : α) {t : Table α} {k : Nat} (h : k ∉ t.map Prod.fst) : Table.get d t k = d := by
  induction t with
  | nil => rfl
  | cons cell rest ih =>
    obtain ⟨i, v⟩ := cell
    simp only [List.map_cons, List.mem_cons, not_or] at h
    have hik : i ≠ k := fun e => h.1 e.symm
    simpa [Table.get, hik] using ih h.2

/-! ### The canonical form -/

/-- A canonical tail stays canonical from a lower bound. -/
theorem Table.canonicalFrom_mono [DecidableEq α] (d : α) {low high : Nat} {t : Table α} (h : low ≤ high)
    (hc : Table.canonicalFrom d high t = true) : Table.canonicalFrom d low t = true := by
  cases t with
  | nil => rfl
  | cons cell rest =>
    obtain ⟨i, v⟩ := cell
    simp only [Table.canonicalFrom, Bool.and_eq_true, decide_eq_true_eq] at hc ⊢
    exact ⟨⟨le_trans h hc.1.1, hc.1.2⟩, hc.2⟩

/-- Erasing keeps the canonical form. -/
theorem Table.canonicalFrom_erase [DecidableEq α] (d : α) (k : Nat) {low : Nat} {t : Table α}
    (hc : Table.canonicalFrom d low t = true) : Table.canonicalFrom d low (Table.erase k t) = true := by
  induction t generalizing low with
  | nil => rfl
  | cons cell rest ih =>
    obtain ⟨i, v⟩ := cell
    simp only [Table.canonicalFrom, Bool.and_eq_true, decide_eq_true_eq] at hc
    by_cases hik : i = k
    · have hf : Table.erase k ((i, v) :: rest) = Table.erase k rest := by simp [Table.erase, hik]
      rw [hf]
      exact ih (Table.canonicalFrom_mono d (by omega) hc.2)
    · have hf : Table.erase k ((i, v) :: rest) = (i, v) :: Table.erase k rest := by simp [Table.erase, hik]
      rw [hf]
      simp only [Table.canonicalFrom, Bool.and_eq_true, decide_eq_true_eq]
      exact ⟨hc.1, ih hc.2⟩

/-- Listing an entry that differs from the reset value keeps the canonical form. -/
theorem Table.canonicalFrom_insert [DecidableEq α] (d : α) {k low : Nat} {v : α} {t : Table α} (hv : v ≠ d)
    (hk : low ≤ k) (free : ∀ cell ∈ t, cell.1 ≠ k) (hc : Table.canonicalFrom d low t = true) :
    Table.canonicalFrom d low (Table.insert k v t) = true := by
  induction t generalizing low with
  | nil => simp [Table.insert, Table.canonicalFrom, hv, hk]
  | cons cell rest ih =>
    obtain ⟨i, w⟩ := cell
    have hik : i ≠ k := free (i, w) (by simp)
    simp only [Table.canonicalFrom, Bool.and_eq_true, decide_eq_true_eq] at hc
    by_cases hlt : k < i
    · simp only [Table.insert, hlt, if_true, Table.canonicalFrom, Bool.and_eq_true, decide_eq_true_eq]
      exact ⟨⟨hk, hv⟩, ⟨by omega, hc.1.2⟩, hc.2⟩
    · simp only [Table.insert, hlt, if_false, Table.canonicalFrom, Bool.and_eq_true, decide_eq_true_eq]
      exact ⟨hc.1, ih (by omega) (fun c h => free c (by simp [h])) hc.2⟩

/-- Writing an entry keeps the canonical form. -/
theorem Table.canonical_set [DecidableEq α] (d : α) {t : Table α} (k : Nat) (v : α)
    (hc : Table.canonical d t = true) : Table.canonical d (Table.set d t k v) = true := by
  unfold Table.set
  split
  · exact Table.canonicalFrom_erase d k hc
  · rename_i hv
    exact Table.canonicalFrom_insert d hv (Nat.zero_le k)
      (fun cell h => by simpa using (List.mem_filter.mp h).2) (Table.canonicalFrom_erase d k hc)

/-- Changing every entry by a function that gives no reset value keeps the canonical form. -/
theorem Table.canonicalFrom_map [DecidableEq α] (d : α) (f : α → α) (hf : ∀ v, v ≠ d → f v ≠ d) {low : Nat}
    {t : Table α} (hc : Table.canonicalFrom d low t = true) :
    Table.canonicalFrom d low (t.map fun cell => (cell.1, f cell.2)) = true := by
  induction t generalizing low with
  | nil => rfl
  | cons cell rest ih =>
    obtain ⟨i, v⟩ := cell
    simp only [Table.canonicalFrom, Bool.and_eq_true, decide_eq_true_eq] at hc
    simp only [List.map_cons, Table.canonicalFrom, Bool.and_eq_true, decide_eq_true_eq]
    exact ⟨⟨hc.1.1, hf v hc.1.2⟩, ih hc.2⟩

/-- What is read after every entry has been changed by a function that keeps the reset value. -/
theorem Table.get_map (d : α) (f : α → α) (hd : f d = d) (t : Table α) (k : Nat) :
    Table.get d (t.map fun cell => (cell.1, f cell.2)) k = f (Table.get d t k) := by
  induction t with
  | nil => exact hd.symm
  | cons cell rest ih =>
    obtain ⟨i, v⟩ := cell
    by_cases h : i = k <;> simp [Table.get, h, ih]

/-- In a canonical table no number below the bound is listed, so it reads as the reset value. -/
theorem Table.get_below [DecidableEq α] (d : α) {low k : Nat} {t : Table α} (hk : k < low)
    (hc : Table.canonicalFrom d low t = true) : Table.get d t k = d := by
  induction t generalizing low with
  | nil => rfl
  | cons cell rest ih =>
    obtain ⟨i, v⟩ := cell
    simp only [Table.canonicalFrom, Bool.and_eq_true, decide_eq_true_eq] at hc
    have hik : i ≠ k := by omega
    simpa [Table.get, hik] using ih (low := i + 1) (by omega) hc.2

/-- Canonical tables that read alike are equal data. -/
theorem Table.ext_canonicalFrom [DecidableEq α] (d : α) {low : Nat} {t u : Table α}
    (ht : Table.canonicalFrom d low t = true) (hu : Table.canonicalFrom d low u = true)
    (h : ∀ k, Table.get d t k = Table.get d u k) : t = u := by
  induction t generalizing low u with
  | nil =>
    cases u with
    | nil => rfl
    | cons cell rest =>
      obtain ⟨i, v⟩ := cell
      simp only [Table.canonicalFrom, Bool.and_eq_true, decide_eq_true_eq] at hu
      have := h i
      simp [Table.get] at this
      exact absurd this.symm hu.1.2
  | cons cell rest ih =>
    obtain ⟨i, v⟩ := cell
    simp only [Table.canonicalFrom, Bool.and_eq_true, decide_eq_true_eq] at ht
    cases u with
    | nil =>
      have := h i
      simp [Table.get] at this
      exact absurd this ht.1.2
    | cons cell' rest' =>
      obtain ⟨j, w⟩ := cell'
      simp only [Table.canonicalFrom, Bool.and_eq_true, decide_eq_true_eq] at hu
      have hij : i = j := by
        rcases Nat.lt_trichotomy i j with hlt | heq | hgt
        · have := h i
          have hji : j ≠ i := by omega
          rw [Table.get, if_pos rfl, Table.get, if_neg hji,
            Table.get_below d (by omega : i < j + 1) hu.2] at this
          exact absurd this ht.1.2
        · exact heq
        · have := h j
          have hne : i ≠ j := by omega
          rw [Table.get, if_neg hne, Table.get_below d (by omega : j < i + 1) ht.2, Table.get, if_pos rfl] at this
          exact absurd this.symm hu.1.2
      subst hij
      have hv : v = w := by simpa [Table.get] using h i
      subst hv
      congr 1
      refine ih ht.2 hu.2 fun k => ?_
      by_cases hik : i = k
      · subst hik
        rw [Table.get_below d (Nat.lt_succ_self i) ht.2, Table.get_below d (Nat.lt_succ_self i) hu.2]
      · have := h k
        simpa [Table.get, hik] using this

end Sys2Proof.Machine
end

