-- ==== Sys2Proof/Laws/State.lean ====
section
/-!
SUPPORT. What each plain update of the state changes, field by field, and what the circuit, map, count and evidence
reads give after it. Every lemma here is true by unfolding one update, so that later proofs unfold none.
-/

namespace Sys2Proof.Machine

variable (s : State)

/-! ### wantSummary -/

@[simp] theorem State.wantSummary_pending : s.wantSummary.pending = s.pending := rfl
@[simp] theorem State.wantSummary_inReset : s.wantSummary.inReset = s.inReset := rfl
@[simp] theorem State.wantSummary_straps : s.wantSummary.straps = s.straps := rfl
@[simp] theorem State.wantSummary_prescale : s.wantSummary.prescale = s.prescale := rfl
@[simp] theorem State.wantSummary_layout : s.wantSummary.layout = s.layout := rfl
@[simp] theorem State.wantSummary_pass : s.wantSummary.pass = s.pass := rfl
@[simp] theorem State.wantSummary_arbiter : s.wantSummary.arbiter = s.arbiter := rfl
@[simp] theorem State.wantSummary_store : s.wantSummary.store = s.store := rfl
@[simp] theorem State.wantSummary_journal : s.wantSummary.journal = s.journal := rfl
@[simp] theorem State.wantSummary_trace : s.wantSummary.trace = s.trace := rfl
@[simp] theorem State.wantSummary_window : s.wantSummary.window = s.window := rfl
@[simp] theorem State.wantSummary_sweep : s.wantSummary.sweep = s.sweep := rfl
@[simp] theorem State.wantSummary_verdict : s.wantSummary.verdict = s.verdict := rfl
@[simp] theorem State.wantSummary_directive : s.wantSummary.directive = s.directive := rfl
@[simp] theorem State.wantSummary_report :
    s.wantSummary.report = { s.report with wanted := true } := rfl
@[simp] theorem State.wantSummary_circuit (k : Nat) : s.wantSummary.circuit k = s.circuit k := rfl
@[simp] theorem State.wantSummary_mapEntry (k : Nat) : s.wantSummary.mapEntry k = s.mapEntry k := rfl
@[simp] theorem State.wantSummary_boundTo (k : Nat) : s.wantSummary.boundTo k = s.boundTo k := rfl
@[simp] theorem State.wantSummary_count (x : CircuitState) : s.wantSummary.count x = s.count x := rfl
@[simp] theorem State.wantSummary_circuitsWhere (p : Circuit → Bool) : s.wantSummary.circuitsWhere p = s.circuitsWhere p := rfl
@[simp] theorem State.wantSummary_windowCircuits : s.wantSummary.windowCircuits = s.windowCircuits := rfl
@[simp] theorem State.wantSummary_evidenceOf (k : Nat) : s.wantSummary.evidenceOf k = s.evidenceOf k := rfl

/-! ### oweCircuit -/

@[simp] theorem State.oweCircuit_pending (c : Nat) : (s.oweCircuit c).pending = s.pending := rfl
@[simp] theorem State.oweCircuit_inReset (c : Nat) : (s.oweCircuit c).inReset = s.inReset := rfl
@[simp] theorem State.oweCircuit_straps (c : Nat) : (s.oweCircuit c).straps = s.straps := rfl
@[simp] theorem State.oweCircuit_prescale (c : Nat) : (s.oweCircuit c).prescale = s.prescale := rfl
@[simp] theorem State.oweCircuit_layout (c : Nat) : (s.oweCircuit c).layout = s.layout := rfl
@[simp] theorem State.oweCircuit_pass (c : Nat) : (s.oweCircuit c).pass = s.pass := rfl
@[simp] theorem State.oweCircuit_arbiter (c : Nat) : (s.oweCircuit c).arbiter = s.arbiter := rfl
@[simp] theorem State.oweCircuit_store (c : Nat) : (s.oweCircuit c).store = s.store := rfl
@[simp] theorem State.oweCircuit_journal (c : Nat) : (s.oweCircuit c).journal = s.journal := rfl
@[simp] theorem State.oweCircuit_trace (c : Nat) : (s.oweCircuit c).trace = s.trace := rfl
@[simp] theorem State.oweCircuit_window (c : Nat) : (s.oweCircuit c).window = s.window := rfl
@[simp] theorem State.oweCircuit_sweep (c : Nat) : (s.oweCircuit c).sweep = s.sweep := rfl
@[simp] theorem State.oweCircuit_verdict (c : Nat) : (s.oweCircuit c).verdict = s.verdict := rfl
@[simp] theorem State.oweCircuit_directive (c : Nat) : (s.oweCircuit c).directive = s.directive := rfl
@[simp] theorem State.oweCircuit_report (c : Nat) :
    (s.oweCircuit c).report = { s.report with owed := Table.set false s.report.owed c true } := rfl
@[simp] theorem State.oweCircuit_circuit (c : Nat) (k : Nat) : (s.oweCircuit c).circuit k = s.circuit k := rfl
@[simp] theorem State.oweCircuit_mapEntry (c : Nat) (k : Nat) : (s.oweCircuit c).mapEntry k = s.mapEntry k := rfl
@[simp] theorem State.oweCircuit_boundTo (c : Nat) (k : Nat) : (s.oweCircuit c).boundTo k = s.boundTo k := rfl
@[simp] theorem State.oweCircuit_count (c : Nat) (x : CircuitState) : (s.oweCircuit c).count x = s.count x := rfl
@[simp] theorem State.oweCircuit_circuitsWhere (c : Nat) (p : Circuit → Bool) : (s.oweCircuit c).circuitsWhere p = s.circuitsWhere p := rfl
@[simp] theorem State.oweCircuit_windowCircuits (c : Nat) : (s.oweCircuit c).windowCircuits = s.windowCircuits := rfl
@[simp] theorem State.oweCircuit_evidenceOf (c : Nat) (k : Nat) : (s.oweCircuit c).evidenceOf k = s.evidenceOf k := rfl

/-! ### oweWindow -/

@[simp] theorem State.oweWindow_pending : s.oweWindow.pending = s.pending := rfl
@[simp] theorem State.oweWindow_inReset : s.oweWindow.inReset = s.inReset := rfl
@[simp] theorem State.oweWindow_straps : s.oweWindow.straps = s.straps := rfl
@[simp] theorem State.oweWindow_prescale : s.oweWindow.prescale = s.prescale := rfl
@[simp] theorem State.oweWindow_layout : s.oweWindow.layout = s.layout := rfl
@[simp] theorem State.oweWindow_pass : s.oweWindow.pass = s.pass := rfl
@[simp] theorem State.oweWindow_arbiter : s.oweWindow.arbiter = s.arbiter := rfl
@[simp] theorem State.oweWindow_store : s.oweWindow.store = s.store := rfl
@[simp] theorem State.oweWindow_journal : s.oweWindow.journal = s.journal := rfl
@[simp] theorem State.oweWindow_trace : s.oweWindow.trace = s.trace := rfl
@[simp] theorem State.oweWindow_window : s.oweWindow.window = s.window := rfl
@[simp] theorem State.oweWindow_sweep : s.oweWindow.sweep = s.sweep := rfl
@[simp] theorem State.oweWindow_verdict : s.oweWindow.verdict = s.verdict := rfl
@[simp] theorem State.oweWindow_directive : s.oweWindow.directive = s.directive := rfl
@[simp] theorem State.oweWindow_report :
    s.oweWindow.report = { s.report with windowOwed := true } := rfl
@[simp] theorem State.oweWindow_circuit (k : Nat) : s.oweWindow.circuit k = s.circuit k := rfl
@[simp] theorem State.oweWindow_mapEntry (k : Nat) : s.oweWindow.mapEntry k = s.mapEntry k := rfl
@[simp] theorem State.oweWindow_boundTo (k : Nat) : s.oweWindow.boundTo k = s.boundTo k := rfl
@[simp] theorem State.oweWindow_count (x : CircuitState) : s.oweWindow.count x = s.count x := rfl
@[simp] theorem State.oweWindow_circuitsWhere (p : Circuit → Bool) : s.oweWindow.circuitsWhere p = s.circuitsWhere p := rfl
@[simp] theorem State.oweWindow_windowCircuits : s.oweWindow.windowCircuits = s.windowCircuits := rfl
@[simp] theorem State.oweWindow_evidenceOf (k : Nat) : s.oweWindow.evidenceOf k = s.evidenceOf k := rfl

/-! ### updateAssured -/

@[simp] theorem State.updateAssured_pending : s.updateAssured.pending = s.pending := rfl
@[simp] theorem State.updateAssured_inReset : s.updateAssured.inReset = s.inReset := rfl
@[simp] theorem State.updateAssured_straps : s.updateAssured.straps = s.straps := rfl
@[simp] theorem State.updateAssured_prescale : s.updateAssured.prescale = s.prescale := rfl
@[simp] theorem State.updateAssured_layout : s.updateAssured.layout = s.layout := rfl
@[simp] theorem State.updateAssured_pass : s.updateAssured.pass = s.pass := rfl
@[simp] theorem State.updateAssured_arbiter : s.updateAssured.arbiter = s.arbiter := rfl
@[simp] theorem State.updateAssured_store : s.updateAssured.store = s.store := rfl
@[simp] theorem State.updateAssured_journal : s.updateAssured.journal = s.journal := rfl
@[simp] theorem State.updateAssured_trace : s.updateAssured.trace = s.trace := rfl
@[simp] theorem State.updateAssured_window : s.updateAssured.window = s.window := rfl
@[simp] theorem State.updateAssured_sweep : s.updateAssured.sweep = s.sweep := rfl
@[simp] theorem State.updateAssured_verdict : s.updateAssured.verdict = s.verdict := rfl
@[simp] theorem State.updateAssured_directive : s.updateAssured.directive = s.directive := rfl
@[simp] theorem State.updateAssured_report :
    s.updateAssured.report = { s.report with assured := s.assuredCondition } := rfl
@[simp] theorem State.updateAssured_circuit (k : Nat) : s.updateAssured.circuit k = s.circuit k := rfl
@[simp] theorem State.updateAssured_mapEntry (k : Nat) : s.updateAssured.mapEntry k = s.mapEntry k := rfl
@[simp] theorem State.updateAssured_boundTo (k : Nat) : s.updateAssured.boundTo k = s.boundTo k := rfl
@[simp] theorem State.updateAssured_count (x : CircuitState) : s.updateAssured.count x = s.count x := rfl
@[simp] theorem State.updateAssured_circuitsWhere (p : Circuit → Bool) : s.updateAssured.circuitsWhere p = s.circuitsWhere p := rfl
@[simp] theorem State.updateAssured_windowCircuits : s.updateAssured.windowCircuits = s.windowCircuits := rfl
@[simp] theorem State.updateAssured_evidenceOf (k : Nat) : s.updateAssured.evidenceOf k = s.evidenceOf k := rfl

/-! ### clearAttention -/

@[simp] theorem State.clearAttention_pending (w : Word) : (s.clearAttention w).pending = s.pending := rfl
@[simp] theorem State.clearAttention_inReset (w : Word) : (s.clearAttention w).inReset = s.inReset := rfl
@[simp] theorem State.clearAttention_straps (w : Word) : (s.clearAttention w).straps = s.straps := rfl
@[simp] theorem State.clearAttention_prescale (w : Word) : (s.clearAttention w).prescale = s.prescale := rfl
@[simp] theorem State.clearAttention_layout (w : Word) : (s.clearAttention w).layout = s.layout := rfl
@[simp] theorem State.clearAttention_pass (w : Word) : (s.clearAttention w).pass = s.pass := rfl
@[simp] theorem State.clearAttention_arbiter (w : Word) : (s.clearAttention w).arbiter = s.arbiter := rfl
@[simp] theorem State.clearAttention_store (w : Word) : (s.clearAttention w).store = s.store := rfl
@[simp] theorem State.clearAttention_journal (w : Word) : (s.clearAttention w).journal = s.journal := rfl
@[simp] theorem State.clearAttention_trace (w : Word) : (s.clearAttention w).trace = s.trace := rfl
@[simp] theorem State.clearAttention_window (w : Word) : (s.clearAttention w).window = s.window := rfl
@[simp] theorem State.clearAttention_sweep (w : Word) : (s.clearAttention w).sweep = s.sweep := rfl
@[simp] theorem State.clearAttention_verdict (w : Word) : (s.clearAttention w).verdict = s.verdict := rfl
@[simp] theorem State.clearAttention_directive (w : Word) : (s.clearAttention w).directive = s.directive := rfl
@[simp] theorem State.clearAttention_circuit (w : Word) (k : Nat) : (s.clearAttention w).circuit k = s.circuit k := rfl
@[simp] theorem State.clearAttention_mapEntry (w : Word) (k : Nat) : (s.clearAttention w).mapEntry k = s.mapEntry k := rfl
@[simp] theorem State.clearAttention_boundTo (w : Word) (k : Nat) : (s.clearAttention w).boundTo k = s.boundTo k := rfl
@[simp] theorem State.clearAttention_count (w : Word) (x : CircuitState) : (s.clearAttention w).count x = s.count x := rfl
@[simp] theorem State.clearAttention_circuitsWhere (w : Word) (p : Circuit → Bool) : (s.clearAttention w).circuitsWhere p = s.circuitsWhere p := rfl
@[simp] theorem State.clearAttention_windowCircuits (w : Word) : (s.clearAttention w).windowCircuits = s.windowCircuits := rfl
@[simp] theorem State.clearAttention_evidenceOf (w : Word) (k : Nat) : (s.clearAttention w).evidenceOf k = s.evidenceOf k := rfl

/-! ### writeFault -/

@[simp] theorem State.writeFault_pending (a : Nat) (kd : FaultKind) (m : Master) : (s.writeFault a kd m).pending = s.pending := rfl
@[simp] theorem State.writeFault_inReset (a : Nat) (kd : FaultKind) (m : Master) : (s.writeFault a kd m).inReset = s.inReset := rfl
@[simp] theorem State.writeFault_straps (a : Nat) (kd : FaultKind) (m : Master) : (s.writeFault a kd m).straps = s.straps := rfl
@[simp] theorem State.writeFault_prescale (a : Nat) (kd : FaultKind) (m : Master) : (s.writeFault a kd m).prescale = s.prescale := rfl
@[simp] theorem State.writeFault_layout (a : Nat) (kd : FaultKind) (m : Master) : (s.writeFault a kd m).layout = s.layout := rfl
@[simp] theorem State.writeFault_pass (a : Nat) (kd : FaultKind) (m : Master) : (s.writeFault a kd m).pass = s.pass := rfl
@[simp] theorem State.writeFault_arbiter (a : Nat) (kd : FaultKind) (m : Master) :
    (s.writeFault a kd m).arbiter = { s.arbiter with fault := ⟨a, kd, m⟩ } := rfl
@[simp] theorem State.writeFault_store (a : Nat) (kd : FaultKind) (m : Master) : (s.writeFault a kd m).store = s.store := rfl
@[simp] theorem State.writeFault_journal (a : Nat) (kd : FaultKind) (m : Master) : (s.writeFault a kd m).journal = s.journal := rfl
@[simp] theorem State.writeFault_trace (a : Nat) (kd : FaultKind) (m : Master) : (s.writeFault a kd m).trace = s.trace := rfl
@[simp] theorem State.writeFault_window (a : Nat) (kd : FaultKind) (m : Master) : (s.writeFault a kd m).window = s.window := rfl
@[simp] theorem State.writeFault_sweep (a : Nat) (kd : FaultKind) (m : Master) : (s.writeFault a kd m).sweep = s.sweep := rfl
@[simp] theorem State.writeFault_verdict (a : Nat) (kd : FaultKind) (m : Master) : (s.writeFault a kd m).verdict = s.verdict := rfl
@[simp] theorem State.writeFault_directive (a : Nat) (kd : FaultKind) (m : Master) : (s.writeFault a kd m).directive = s.directive := rfl
@[simp] theorem State.writeFault_report (a : Nat) (kd : FaultKind) (m : Master) :
    (s.writeFault a kd m).report = { s.report with wanted := true } := rfl
@[simp] theorem State.writeFault_circuit (a : Nat) (kd : FaultKind) (m : Master) (k : Nat) : (s.writeFault a kd m).circuit k = s.circuit k := rfl
@[simp] theorem State.writeFault_mapEntry (a : Nat) (kd : FaultKind) (m : Master) (k : Nat) : (s.writeFault a kd m).mapEntry k = s.mapEntry k := rfl
@[simp] theorem State.writeFault_boundTo (a : Nat) (kd : FaultKind) (m : Master) (k : Nat) : (s.writeFault a kd m).boundTo k = s.boundTo k := rfl
@[simp] theorem State.writeFault_count (a : Nat) (kd : FaultKind) (m : Master) (x : CircuitState) : (s.writeFault a kd m).count x = s.count x := rfl
@[simp] theorem State.writeFault_circuitsWhere (a : Nat) (kd : FaultKind) (m : Master) (p : Circuit → Bool) : (s.writeFault a kd m).circuitsWhere p = s.circuitsWhere p := rfl
@[simp] theorem State.writeFault_windowCircuits (a : Nat) (kd : FaultKind) (m : Master) : (s.writeFault a kd m).windowCircuits = s.windowCircuits := rfl
@[simp] theorem State.writeFault_evidenceOf (a : Nat) (kd : FaultKind) (m : Master) (k : Nat) : (s.writeFault a kd m).evidenceOf k = s.evidenceOf k := rfl

/-! ### putCircuit -/

@[simp] theorem State.putCircuit_pending (c : Nat) (r : Circuit) : (s.putCircuit c r).pending = s.pending := rfl
@[simp] theorem State.putCircuit_inReset (c : Nat) (r : Circuit) : (s.putCircuit c r).inReset = s.inReset := rfl
@[simp] theorem State.putCircuit_straps (c : Nat) (r : Circuit) : (s.putCircuit c r).straps = s.straps := rfl
@[simp] theorem State.putCircuit_prescale (c : Nat) (r : Circuit) : (s.putCircuit c r).prescale = s.prescale := rfl
@[simp] theorem State.putCircuit_layout (c : Nat) (r : Circuit) : (s.putCircuit c r).layout = s.layout := rfl
@[simp] theorem State.putCircuit_pass (c : Nat) (r : Circuit) : (s.putCircuit c r).pass = s.pass := rfl
@[simp] theorem State.putCircuit_arbiter (c : Nat) (r : Circuit) : (s.putCircuit c r).arbiter = s.arbiter := rfl
@[simp] theorem State.putCircuit_store (c : Nat) (r : Circuit) :
    (s.putCircuit c r).store = { s.store with circuits := Table.set {} s.store.circuits c r } := rfl
@[simp] theorem State.putCircuit_journal (c : Nat) (r : Circuit) : (s.putCircuit c r).journal = s.journal := rfl
@[simp] theorem State.putCircuit_trace (c : Nat) (r : Circuit) : (s.putCircuit c r).trace = s.trace := rfl
@[simp] theorem State.putCircuit_window (c : Nat) (r : Circuit) : (s.putCircuit c r).window = s.window := rfl
@[simp] theorem State.putCircuit_sweep (c : Nat) (r : Circuit) : (s.putCircuit c r).sweep = s.sweep := rfl
@[simp] theorem State.putCircuit_verdict (c : Nat) (r : Circuit) : (s.putCircuit c r).verdict = s.verdict := rfl
@[simp] theorem State.putCircuit_directive (c : Nat) (r : Circuit) : (s.putCircuit c r).directive = s.directive := rfl
@[simp] theorem State.putCircuit_report (c : Nat) (r : Circuit) : (s.putCircuit c r).report = s.report := rfl
@[simp] theorem State.putCircuit_evidenceOf (c : Nat) (r : Circuit) (k : Nat) : (s.putCircuit c r).evidenceOf k = s.evidenceOf k := rfl

/-! ### putEntry -/

@[simp] theorem State.putEntry_pending (i : Nat) (e : MapEntry) : (s.putEntry i e).pending = s.pending := rfl
@[simp] theorem State.putEntry_inReset (i : Nat) (e : MapEntry) : (s.putEntry i e).inReset = s.inReset := rfl
@[simp] theorem State.putEntry_straps (i : Nat) (e : MapEntry) : (s.putEntry i e).straps = s.straps := rfl
@[simp] theorem State.putEntry_prescale (i : Nat) (e : MapEntry) : (s.putEntry i e).prescale = s.prescale := rfl
@[simp] theorem State.putEntry_layout (i : Nat) (e : MapEntry) : (s.putEntry i e).layout = s.layout := rfl
@[simp] theorem State.putEntry_pass (i : Nat) (e : MapEntry) : (s.putEntry i e).pass = s.pass := rfl
@[simp] theorem State.putEntry_arbiter (i : Nat) (e : MapEntry) : (s.putEntry i e).arbiter = s.arbiter := rfl
@[simp] theorem State.putEntry_store (i : Nat) (e : MapEntry) :
    (s.putEntry i e).store = { s.store with entryMap := Table.set {} s.store.entryMap i e } := rfl
@[simp] theorem State.putEntry_journal (i : Nat) (e : MapEntry) : (s.putEntry i e).journal = s.journal := rfl
@[simp] theorem State.putEntry_trace (i : Nat) (e : MapEntry) : (s.putEntry i e).trace = s.trace := rfl
@[simp] theorem State.putEntry_window (i : Nat) (e : MapEntry) : (s.putEntry i e).window = s.window := rfl
@[simp] theorem State.putEntry_sweep (i : Nat) (e : MapEntry) : (s.putEntry i e).sweep = s.sweep := rfl
@[simp] theorem State.putEntry_verdict (i : Nat) (e : MapEntry) : (s.putEntry i e).verdict = s.verdict := rfl
@[simp] theorem State.putEntry_directive (i : Nat) (e : MapEntry) : (s.putEntry i e).directive = s.directive := rfl
@[simp] theorem State.putEntry_report (i : Nat) (e : MapEntry) : (s.putEntry i e).report = s.report := rfl
@[simp] theorem State.putEntry_evidenceOf (i : Nat) (e : MapEntry) (k : Nat) : (s.putEntry i e).evidenceOf k = s.evidenceOf k := rfl

/-! ### putBinding -/

@[simp] theorem State.putBinding_pending (ch : Nat) (b : Option Nat) : (s.putBinding ch b).pending = s.pending := rfl
@[simp] theorem State.putBinding_inReset (ch : Nat) (b : Option Nat) : (s.putBinding ch b).inReset = s.inReset := rfl
@[simp] theorem State.putBinding_straps (ch : Nat) (b : Option Nat) : (s.putBinding ch b).straps = s.straps := rfl
@[simp] theorem State.putBinding_prescale (ch : Nat) (b : Option Nat) : (s.putBinding ch b).prescale = s.prescale := rfl
@[simp] theorem State.putBinding_layout (ch : Nat) (b : Option Nat) : (s.putBinding ch b).layout = s.layout := rfl
@[simp] theorem State.putBinding_pass (ch : Nat) (b : Option Nat) : (s.putBinding ch b).pass = s.pass := rfl
@[simp] theorem State.putBinding_arbiter (ch : Nat) (b : Option Nat) : (s.putBinding ch b).arbiter = s.arbiter := rfl
@[simp] theorem State.putBinding_store (ch : Nat) (b : Option Nat) :
    (s.putBinding ch b).store = { s.store with channelMap := Table.set none s.store.channelMap ch b } := rfl
@[simp] theorem State.putBinding_journal (ch : Nat) (b : Option Nat) : (s.putBinding ch b).journal = s.journal := rfl
@[simp] theorem State.putBinding_trace (ch : Nat) (b : Option Nat) : (s.putBinding ch b).trace = s.trace := rfl
@[simp] theorem State.putBinding_window (ch : Nat) (b : Option Nat) : (s.putBinding ch b).window = s.window := rfl
@[simp] theorem State.putBinding_sweep (ch : Nat) (b : Option Nat) : (s.putBinding ch b).sweep = s.sweep := rfl
@[simp] theorem State.putBinding_verdict (ch : Nat) (b : Option Nat) : (s.putBinding ch b).verdict = s.verdict := rfl
@[simp] theorem State.putBinding_directive (ch : Nat) (b : Option Nat) : (s.putBinding ch b).directive = s.directive := rfl
@[simp] theorem State.putBinding_report (ch : Nat) (b : Option Nat) : (s.putBinding ch b).report = s.report := rfl
@[simp] theorem State.putBinding_evidenceOf (ch : Nat) (b : Option Nat) (k : Nat) : (s.putBinding ch b).evidenceOf k = s.evidenceOf k := rfl

/-! ### putCount -/

@[simp] theorem State.putCount_pending (st : CircuitState) (n : Nat) : (s.putCount st n).pending = s.pending := rfl
@[simp] theorem State.putCount_inReset (st : CircuitState) (n : Nat) : (s.putCount st n).inReset = s.inReset := rfl
@[simp] theorem State.putCount_straps (st : CircuitState) (n : Nat) : (s.putCount st n).straps = s.straps := rfl
@[simp] theorem State.putCount_prescale (st : CircuitState) (n : Nat) : (s.putCount st n).prescale = s.prescale := rfl
@[simp] theorem State.putCount_layout (st : CircuitState) (n : Nat) : (s.putCount st n).layout = s.layout := rfl
@[simp] theorem State.putCount_pass (st : CircuitState) (n : Nat) : (s.putCount st n).pass = s.pass := rfl
@[simp] theorem State.putCount_arbiter (st : CircuitState) (n : Nat) : (s.putCount st n).arbiter = s.arbiter := rfl
@[simp] theorem State.putCount_store (st : CircuitState) (n : Nat) :
    (s.putCount st n).store = { s.store with counts := Table.set 0 s.store.counts st.code n } := rfl
@[simp] theorem State.putCount_journal (st : CircuitState) (n : Nat) : (s.putCount st n).journal = s.journal := rfl
@[simp] theorem State.putCount_trace (st : CircuitState) (n : Nat) : (s.putCount st n).trace = s.trace := rfl
@[simp] theorem State.putCount_window (st : CircuitState) (n : Nat) : (s.putCount st n).window = s.window := rfl
@[simp] theorem State.putCount_sweep (st : CircuitState) (n : Nat) : (s.putCount st n).sweep = s.sweep := rfl
@[simp] theorem State.putCount_verdict (st : CircuitState) (n : Nat) : (s.putCount st n).verdict = s.verdict := rfl
@[simp] theorem State.putCount_directive (st : CircuitState) (n : Nat) : (s.putCount st n).directive = s.directive := rfl
@[simp] theorem State.putCount_report (st : CircuitState) (n : Nat) :
    (s.putCount st n).report = { s.report with wanted := true } := rfl
@[simp] theorem State.putCount_evidenceOf (st : CircuitState) (n : Nat) (k : Nat) : (s.putCount st n).evidenceOf k = s.evidenceOf k := rfl

/-! ### putEvidence -/

@[simp] theorem State.putEvidence_pending (ch : Nat) (e : Evidence) : (s.putEvidence ch e).pending = s.pending := rfl
@[simp] theorem State.putEvidence_inReset (ch : Nat) (e : Evidence) : (s.putEvidence ch e).inReset = s.inReset := rfl
@[simp] theorem State.putEvidence_straps (ch : Nat) (e : Evidence) : (s.putEvidence ch e).straps = s.straps := rfl
@[simp] theorem State.putEvidence_prescale (ch : Nat) (e : Evidence) : (s.putEvidence ch e).prescale = s.prescale := rfl
@[simp] theorem State.putEvidence_layout (ch : Nat) (e : Evidence) : (s.putEvidence ch e).layout = s.layout := rfl
@[simp] theorem State.putEvidence_pass (ch : Nat) (e : Evidence) : (s.putEvidence ch e).pass = s.pass := rfl
@[simp] theorem State.putEvidence_arbiter (ch : Nat) (e : Evidence) : (s.putEvidence ch e).arbiter = s.arbiter := rfl
@[simp] theorem State.putEvidence_store (ch : Nat) (e : Evidence) : (s.putEvidence ch e).store = s.store := rfl
@[simp] theorem State.putEvidence_journal (ch : Nat) (e : Evidence) : (s.putEvidence ch e).journal = s.journal := rfl
@[simp] theorem State.putEvidence_trace (ch : Nat) (e : Evidence) :
    (s.putEvidence ch e).trace = { s.trace with evidence := Table.set {} s.trace.evidence ch e } := rfl
@[simp] theorem State.putEvidence_window (ch : Nat) (e : Evidence) : (s.putEvidence ch e).window = s.window := rfl
@[simp] theorem State.putEvidence_sweep (ch : Nat) (e : Evidence) : (s.putEvidence ch e).sweep = s.sweep := rfl
@[simp] theorem State.putEvidence_verdict (ch : Nat) (e : Evidence) : (s.putEvidence ch e).verdict = s.verdict := rfl
@[simp] theorem State.putEvidence_directive (ch : Nat) (e : Evidence) : (s.putEvidence ch e).directive = s.directive := rfl
@[simp] theorem State.putEvidence_report (ch : Nat) (e : Evidence) : (s.putEvidence ch e).report = s.report := rfl
@[simp] theorem State.putEvidence_circuit (ch : Nat) (e : Evidence) (k : Nat) : (s.putEvidence ch e).circuit k = s.circuit k := rfl
@[simp] theorem State.putEvidence_mapEntry (ch : Nat) (e : Evidence) (k : Nat) : (s.putEvidence ch e).mapEntry k = s.mapEntry k := rfl
@[simp] theorem State.putEvidence_boundTo (ch : Nat) (e : Evidence) (k : Nat) : (s.putEvidence ch e).boundTo k = s.boundTo k := rfl
@[simp] theorem State.putEvidence_count (ch : Nat) (e : Evidence) (x : CircuitState) : (s.putEvidence ch e).count x = s.count x := rfl
@[simp] theorem State.putEvidence_circuitsWhere (ch : Nat) (e : Evidence) (p : Circuit → Bool) : (s.putEvidence ch e).circuitsWhere p = s.circuitsWhere p := rfl
@[simp] theorem State.putEvidence_windowCircuits (ch : Nat) (e : Evidence) : (s.putEvidence ch e).windowCircuits = s.windowCircuits := rfl

/-! ### requestDirective -/

@[simp] theorem State.requestDirective_pending (a : Nat) (d : Option Word) : (s.requestDirective a d).pending = s.pending := rfl
@[simp] theorem State.requestDirective_inReset (a : Nat) (d : Option Word) : (s.requestDirective a d).inReset = s.inReset := rfl
@[simp] theorem State.requestDirective_straps (a : Nat) (d : Option Word) : (s.requestDirective a d).straps = s.straps := rfl
@[simp] theorem State.requestDirective_prescale (a : Nat) (d : Option Word) : (s.requestDirective a d).prescale = s.prescale := rfl
@[simp] theorem State.requestDirective_layout (a : Nat) (d : Option Word) : (s.requestDirective a d).layout = s.layout := rfl
@[simp] theorem State.requestDirective_pass (a : Nat) (d : Option Word) : (s.requestDirective a d).pass = s.pass := rfl
@[simp] theorem State.requestDirective_arbiter (a : Nat) (d : Option Word) :
    (s.requestDirective a d).arbiter = { s.arbiter with directive := some { addr := a, write := d.map (·, 0xF) } } := rfl
@[simp] theorem State.requestDirective_store (a : Nat) (d : Option Word) : (s.requestDirective a d).store = s.store := rfl
@[simp] theorem State.requestDirective_journal (a : Nat) (d : Option Word) : (s.requestDirective a d).journal = s.journal := rfl
@[simp] theorem State.requestDirective_trace (a : Nat) (d : Option Word) : (s.requestDirective a d).trace = s.trace := rfl
@[simp] theorem State.requestDirective_window (a : Nat) (d : Option Word) : (s.requestDirective a d).window = s.window := rfl
@[simp] theorem State.requestDirective_sweep (a : Nat) (d : Option Word) : (s.requestDirective a d).sweep = s.sweep := rfl
@[simp] theorem State.requestDirective_verdict (a : Nat) (d : Option Word) : (s.requestDirective a d).verdict = s.verdict := rfl
@[simp] theorem State.requestDirective_directive (a : Nat) (d : Option Word) : (s.requestDirective a d).directive = s.directive := rfl
@[simp] theorem State.requestDirective_report (a : Nat) (d : Option Word) : (s.requestDirective a d).report = s.report := rfl
@[simp] theorem State.requestDirective_circuit (a : Nat) (d : Option Word) (k : Nat) : (s.requestDirective a d).circuit k = s.circuit k := rfl
@[simp] theorem State.requestDirective_mapEntry (a : Nat) (d : Option Word) (k : Nat) : (s.requestDirective a d).mapEntry k = s.mapEntry k := rfl
@[simp] theorem State.requestDirective_boundTo (a : Nat) (d : Option Word) (k : Nat) : (s.requestDirective a d).boundTo k = s.boundTo k := rfl
@[simp] theorem State.requestDirective_count (a : Nat) (d : Option Word) (x : CircuitState) : (s.requestDirective a d).count x = s.count x := rfl
@[simp] theorem State.requestDirective_circuitsWhere (a : Nat) (d : Option Word) (p : Circuit → Bool) : (s.requestDirective a d).circuitsWhere p = s.circuitsWhere p := rfl
@[simp] theorem State.requestDirective_windowCircuits (a : Nat) (d : Option Word) : (s.requestDirective a d).windowCircuits = s.windowCircuits := rfl
@[simp] theorem State.requestDirective_evidenceOf (a : Nat) (d : Option Word) (k : Nat) : (s.requestDirective a d).evidenceOf k = s.evidenceOf k := rfl

/-! ### requestReport -/

@[simp] theorem State.requestReport_pending (a : Nat) (d : Word) : (s.requestReport a d).pending = s.pending := rfl
@[simp] theorem State.requestReport_inReset (a : Nat) (d : Word) : (s.requestReport a d).inReset = s.inReset := rfl
@[simp] theorem State.requestReport_straps (a : Nat) (d : Word) : (s.requestReport a d).straps = s.straps := rfl
@[simp] theorem State.requestReport_prescale (a : Nat) (d : Word) : (s.requestReport a d).prescale = s.prescale := rfl
@[simp] theorem State.requestReport_layout (a : Nat) (d : Word) : (s.requestReport a d).layout = s.layout := rfl
@[simp] theorem State.requestReport_pass (a : Nat) (d : Word) : (s.requestReport a d).pass = s.pass := rfl
@[simp] theorem State.requestReport_arbiter (a : Nat) (d : Word) :
    (s.requestReport a d).arbiter = { s.arbiter with report := some { addr := a, write := some (d, 0xF) } } := rfl
@[simp] theorem State.requestReport_store (a : Nat) (d : Word) : (s.requestReport a d).store = s.store := rfl
@[simp] theorem State.requestReport_journal (a : Nat) (d : Word) : (s.requestReport a d).journal = s.journal := rfl
@[simp] theorem State.requestReport_trace (a : Nat) (d : Word) : (s.requestReport a d).trace = s.trace := rfl
@[simp] theorem State.requestReport_window (a : Nat) (d : Word) : (s.requestReport a d).window = s.window := rfl
@[simp] theorem State.requestReport_sweep (a : Nat) (d : Word) : (s.requestReport a d).sweep = s.sweep := rfl
@[simp] theorem State.requestReport_verdict (a : Nat) (d : Word) : (s.requestReport a d).verdict = s.verdict := rfl
@[simp] theorem State.requestReport_directive (a : Nat) (d : Word) : (s.requestReport a d).directive = s.directive := rfl
@[simp] theorem State.requestReport_report (a : Nat) (d : Word) : (s.requestReport a d).report = s.report := rfl
@[simp] theorem State.requestReport_circuit (a : Nat) (d : Word) (k : Nat) : (s.requestReport a d).circuit k = s.circuit k := rfl
@[simp] theorem State.requestReport_mapEntry (a : Nat) (d : Word) (k : Nat) : (s.requestReport a d).mapEntry k = s.mapEntry k := rfl
@[simp] theorem State.requestReport_boundTo (a : Nat) (d : Word) (k : Nat) : (s.requestReport a d).boundTo k = s.boundTo k := rfl
@[simp] theorem State.requestReport_count (a : Nat) (d : Word) (x : CircuitState) : (s.requestReport a d).count x = s.count x := rfl
@[simp] theorem State.requestReport_circuitsWhere (a : Nat) (d : Word) (p : Circuit → Bool) : (s.requestReport a d).circuitsWhere p = s.circuitsWhere p := rfl
@[simp] theorem State.requestReport_windowCircuits (a : Nat) (d : Word) : (s.requestReport a d).windowCircuits = s.windowCircuits := rfl
@[simp] theorem State.requestReport_evidenceOf (a : Nat) (d : Word) (k : Nat) : (s.requestReport a d).evidenceOf k = s.evidenceOf k := rfl

/-! ### freePort -/

@[simp] theorem State.freePort_pending : s.freePort.pending = s.pending := rfl
@[simp] theorem State.freePort_inReset : s.freePort.inReset = s.inReset := rfl
@[simp] theorem State.freePort_straps : s.freePort.straps = s.straps := rfl
@[simp] theorem State.freePort_prescale : s.freePort.prescale = s.prescale := rfl
@[simp] theorem State.freePort_layout : s.freePort.layout = s.layout := rfl
@[simp] theorem State.freePort_pass : s.freePort.pass = s.pass := rfl
@[simp] theorem State.freePort_arbiter :
    s.freePort.arbiter = { s.arbiter with port := none } := rfl
@[simp] theorem State.freePort_store : s.freePort.store = s.store := rfl
@[simp] theorem State.freePort_journal : s.freePort.journal = s.journal := rfl
@[simp] theorem State.freePort_trace : s.freePort.trace = s.trace := rfl
@[simp] theorem State.freePort_window : s.freePort.window = s.window := rfl
@[simp] theorem State.freePort_sweep : s.freePort.sweep = s.sweep := rfl
@[simp] theorem State.freePort_verdict : s.freePort.verdict = s.verdict := rfl
@[simp] theorem State.freePort_directive : s.freePort.directive = s.directive := rfl
@[simp] theorem State.freePort_report : s.freePort.report = s.report := rfl
@[simp] theorem State.freePort_circuit (k : Nat) : s.freePort.circuit k = s.circuit k := rfl
@[simp] theorem State.freePort_mapEntry (k : Nat) : s.freePort.mapEntry k = s.mapEntry k := rfl
@[simp] theorem State.freePort_boundTo (k : Nat) : s.freePort.boundTo k = s.boundTo k := rfl
@[simp] theorem State.freePort_count (x : CircuitState) : s.freePort.count x = s.count x := rfl
@[simp] theorem State.freePort_circuitsWhere (p : Circuit → Bool) : s.freePort.circuitsWhere p = s.circuitsWhere p := rfl
@[simp] theorem State.freePort_windowCircuits : s.freePort.windowCircuits = s.windowCircuits := rfl
@[simp] theorem State.freePort_evidenceOf (k : Nat) : s.freePort.evidenceOf k = s.evidenceOf k := rfl

/-! ### setStarvation -/

@[simp] theorem State.setStarvation_pending (n : Nat) : (s.setStarvation n).pending = s.pending := rfl
@[simp] theorem State.setStarvation_inReset (n : Nat) : (s.setStarvation n).inReset = s.inReset := rfl
@[simp] theorem State.setStarvation_straps (n : Nat) : (s.setStarvation n).straps = s.straps := rfl
@[simp] theorem State.setStarvation_prescale (n : Nat) : (s.setStarvation n).prescale = s.prescale := rfl
@[simp] theorem State.setStarvation_layout (n : Nat) : (s.setStarvation n).layout = s.layout := rfl
@[simp] theorem State.setStarvation_pass (n : Nat) : (s.setStarvation n).pass = s.pass := rfl
@[simp] theorem State.setStarvation_arbiter (n : Nat) :
    (s.setStarvation n).arbiter = { s.arbiter with starvation := n } := rfl
@[simp] theorem State.setStarvation_store (n : Nat) : (s.setStarvation n).store = s.store := rfl
@[simp] theorem State.setStarvation_journal (n : Nat) : (s.setStarvation n).journal = s.journal := rfl
@[simp] theorem State.setStarvation_trace (n : Nat) : (s.setStarvation n).trace = s.trace := rfl
@[simp] theorem State.setStarvation_window (n : Nat) : (s.setStarvation n).window = s.window := rfl
@[simp] theorem State.setStarvation_sweep (n : Nat) : (s.setStarvation n).sweep = s.sweep := rfl
@[simp] theorem State.setStarvation_verdict (n : Nat) : (s.setStarvation n).verdict = s.verdict := rfl
@[simp] theorem State.setStarvation_directive (n : Nat) : (s.setStarvation n).directive = s.directive := rfl
@[simp] theorem State.setStarvation_report (n : Nat) : (s.setStarvation n).report = s.report := rfl
@[simp] theorem State.setStarvation_circuit (n : Nat) (k : Nat) : (s.setStarvation n).circuit k = s.circuit k := rfl
@[simp] theorem State.setStarvation_mapEntry (n : Nat) (k : Nat) : (s.setStarvation n).mapEntry k = s.mapEntry k := rfl
@[simp] theorem State.setStarvation_boundTo (n : Nat) (k : Nat) : (s.setStarvation n).boundTo k = s.boundTo k := rfl
@[simp] theorem State.setStarvation_count (n : Nat) (x : CircuitState) : (s.setStarvation n).count x = s.count x := rfl
@[simp] theorem State.setStarvation_circuitsWhere (n : Nat) (p : Circuit → Bool) : (s.setStarvation n).circuitsWhere p = s.circuitsWhere p := rfl
@[simp] theorem State.setStarvation_windowCircuits (n : Nat) : (s.setStarvation n).windowCircuits = s.windowCircuits := rfl
@[simp] theorem State.setStarvation_evidenceOf (n : Nat) (k : Nat) : (s.setStarvation n).evidenceOf k = s.evidenceOf k := rfl

/-! ### grantPass -/

@[simp] theorem State.grantPass_pending (r : Request) : (s.grantPass r).pending = s.pending := rfl
@[simp] theorem State.grantPass_inReset (r : Request) : (s.grantPass r).inReset = s.inReset := rfl
@[simp] theorem State.grantPass_straps (r : Request) : (s.grantPass r).straps = s.straps := rfl
@[simp] theorem State.grantPass_prescale (r : Request) : (s.grantPass r).prescale = s.prescale := rfl
@[simp] theorem State.grantPass_layout (r : Request) : (s.grantPass r).layout = s.layout := rfl
@[simp] theorem State.grantPass_pass (r : Request) : (s.grantPass r).pass = s.pass := rfl
@[simp] theorem State.grantPass_arbiter (r : Request) :
    (s.grantPass r).arbiter = { s.arbiter with port := some { who := .passPath, request := r } } := rfl
@[simp] theorem State.grantPass_store (r : Request) : (s.grantPass r).store = s.store := rfl
@[simp] theorem State.grantPass_journal (r : Request) : (s.grantPass r).journal = s.journal := rfl
@[simp] theorem State.grantPass_trace (r : Request) : (s.grantPass r).trace = s.trace := rfl
@[simp] theorem State.grantPass_window (r : Request) : (s.grantPass r).window = s.window := rfl
@[simp] theorem State.grantPass_sweep (r : Request) : (s.grantPass r).sweep = s.sweep := rfl
@[simp] theorem State.grantPass_verdict (r : Request) : (s.grantPass r).verdict = s.verdict := rfl
@[simp] theorem State.grantPass_directive (r : Request) : (s.grantPass r).directive = s.directive := rfl
@[simp] theorem State.grantPass_report (r : Request) : (s.grantPass r).report = s.report := rfl
@[simp] theorem State.grantPass_circuit (r : Request) (k : Nat) : (s.grantPass r).circuit k = s.circuit k := rfl
@[simp] theorem State.grantPass_mapEntry (r : Request) (k : Nat) : (s.grantPass r).mapEntry k = s.mapEntry k := rfl
@[simp] theorem State.grantPass_boundTo (r : Request) (k : Nat) : (s.grantPass r).boundTo k = s.boundTo k := rfl
@[simp] theorem State.grantPass_count (r : Request) (x : CircuitState) : (s.grantPass r).count x = s.count x := rfl
@[simp] theorem State.grantPass_circuitsWhere (r : Request) (p : Circuit → Bool) : (s.grantPass r).circuitsWhere p = s.circuitsWhere p := rfl
@[simp] theorem State.grantPass_windowCircuits (r : Request) : (s.grantPass r).windowCircuits = s.windowCircuits := rfl
@[simp] theorem State.grantPass_evidenceOf (r : Request) (k : Nat) : (s.grantPass r).evidenceOf k = s.evidenceOf k := rfl

/-! ### endJob -/

@[simp] theorem State.endJob_pending : s.endJob.pending = s.pending := rfl
@[simp] theorem State.endJob_inReset : s.endJob.inReset = s.inReset := rfl
@[simp] theorem State.endJob_straps : s.endJob.straps = s.straps := rfl
@[simp] theorem State.endJob_prescale : s.endJob.prescale = s.prescale := rfl
@[simp] theorem State.endJob_layout : s.endJob.layout = s.layout := rfl
@[simp] theorem State.endJob_pass : s.endJob.pass = s.pass := rfl
@[simp] theorem State.endJob_arbiter : s.endJob.arbiter = s.arbiter := rfl
@[simp] theorem State.endJob_store : s.endJob.store = s.store := rfl
@[simp] theorem State.endJob_journal : s.endJob.journal = s.journal := rfl
@[simp] theorem State.endJob_trace : s.endJob.trace = s.trace := rfl
@[simp] theorem State.endJob_window : s.endJob.window = s.window := rfl
@[simp] theorem State.endJob_sweep :
    s.endJob.sweep = { s.sweep with job := .none, held := none } := rfl
@[simp] theorem State.endJob_verdict : s.endJob.verdict = s.verdict := rfl
@[simp] theorem State.endJob_directive : s.endJob.directive = s.directive := rfl
@[simp] theorem State.endJob_report : s.endJob.report = s.report := rfl
@[simp] theorem State.endJob_circuit (k : Nat) : s.endJob.circuit k = s.circuit k := rfl
@[simp] theorem State.endJob_mapEntry (k : Nat) : s.endJob.mapEntry k = s.mapEntry k := rfl
@[simp] theorem State.endJob_boundTo (k : Nat) : s.endJob.boundTo k = s.boundTo k := rfl
@[simp] theorem State.endJob_count (x : CircuitState) : s.endJob.count x = s.count x := rfl
@[simp] theorem State.endJob_circuitsWhere (p : Circuit → Bool) : s.endJob.circuitsWhere p = s.circuitsWhere p := rfl
@[simp] theorem State.endJob_windowCircuits : s.endJob.windowCircuits = s.windowCircuits := rfl
@[simp] theorem State.endJob_evidenceOf (k : Nat) : s.endJob.evidenceOf k = s.evidenceOf k := rfl

/-! ### setDemand -/

@[simp] theorem State.setDemand_pending (d : Demand) : (s.setDemand d).pending = s.pending := rfl
@[simp] theorem State.setDemand_inReset (d : Demand) : (s.setDemand d).inReset = s.inReset := rfl
@[simp] theorem State.setDemand_straps (d : Demand) : (s.setDemand d).straps = s.straps := rfl
@[simp] theorem State.setDemand_prescale (d : Demand) : (s.setDemand d).prescale = s.prescale := rfl
@[simp] theorem State.setDemand_layout (d : Demand) : (s.setDemand d).layout = s.layout := rfl
@[simp] theorem State.setDemand_pass (d : Demand) : (s.setDemand d).pass = s.pass := rfl
@[simp] theorem State.setDemand_arbiter (d : Demand) : (s.setDemand d).arbiter = s.arbiter := rfl
@[simp] theorem State.setDemand_store (d : Demand) : (s.setDemand d).store = s.store := rfl
@[simp] theorem State.setDemand_journal (d : Demand) :
    (s.setDemand d).journal = { s.journal with demand := d } := rfl
@[simp] theorem State.setDemand_trace (d : Demand) : (s.setDemand d).trace = s.trace := rfl
@[simp] theorem State.setDemand_window (d : Demand) : (s.setDemand d).window = s.window := rfl
@[simp] theorem State.setDemand_sweep (d : Demand) : (s.setDemand d).sweep = s.sweep := rfl
@[simp] theorem State.setDemand_verdict (d : Demand) : (s.setDemand d).verdict = s.verdict := rfl
@[simp] theorem State.setDemand_directive (d : Demand) : (s.setDemand d).directive = s.directive := rfl
@[simp] theorem State.setDemand_report (d : Demand) : (s.setDemand d).report = s.report := rfl
@[simp] theorem State.setDemand_circuit (d : Demand) (k : Nat) : (s.setDemand d).circuit k = s.circuit k := rfl
@[simp] theorem State.setDemand_mapEntry (d : Demand) (k : Nat) : (s.setDemand d).mapEntry k = s.mapEntry k := rfl
@[simp] theorem State.setDemand_boundTo (d : Demand) (k : Nat) : (s.setDemand d).boundTo k = s.boundTo k := rfl
@[simp] theorem State.setDemand_count (d : Demand) (x : CircuitState) : (s.setDemand d).count x = s.count x := rfl
@[simp] theorem State.setDemand_circuitsWhere (d : Demand) (p : Circuit → Bool) : (s.setDemand d).circuitsWhere p = s.circuitsWhere p := rfl
@[simp] theorem State.setDemand_windowCircuits (d : Demand) : (s.setDemand d).windowCircuits = s.windowCircuits := rfl
@[simp] theorem State.setDemand_evidenceOf (d : Demand) (k : Nat) : (s.setDemand d).evidenceOf k = s.evidenceOf k := rfl

/-! ### setDirectiveStep -/

@[simp] theorem State.setDirectiveStep_pending (st : DirectiveStep) : (s.setDirectiveStep st).pending = s.pending := rfl
@[simp] theorem State.setDirectiveStep_inReset (st : DirectiveStep) : (s.setDirectiveStep st).inReset = s.inReset := rfl
@[simp] theorem State.setDirectiveStep_straps (st : DirectiveStep) : (s.setDirectiveStep st).straps = s.straps := rfl
@[simp] theorem State.setDirectiveStep_prescale (st : DirectiveStep) : (s.setDirectiveStep st).prescale = s.prescale := rfl
@[simp] theorem State.setDirectiveStep_layout (st : DirectiveStep) : (s.setDirectiveStep st).layout = s.layout := rfl
@[simp] theorem State.setDirectiveStep_pass (st : DirectiveStep) : (s.setDirectiveStep st).pass = s.pass := rfl
@[simp] theorem State.setDirectiveStep_arbiter (st : DirectiveStep) : (s.setDirectiveStep st).arbiter = s.arbiter := rfl
@[simp] theorem State.setDirectiveStep_store (st : DirectiveStep) : (s.setDirectiveStep st).store = s.store := rfl
@[simp] theorem State.setDirectiveStep_journal (st : DirectiveStep) : (s.setDirectiveStep st).journal = s.journal := rfl
@[simp] theorem State.setDirectiveStep_trace (st : DirectiveStep) : (s.setDirectiveStep st).trace = s.trace := rfl
@[simp] theorem State.setDirectiveStep_window (st : DirectiveStep) : (s.setDirectiveStep st).window = s.window := rfl
@[simp] theorem State.setDirectiveStep_sweep (st : DirectiveStep) : (s.setDirectiveStep st).sweep = s.sweep := rfl
@[simp] theorem State.setDirectiveStep_verdict (st : DirectiveStep) : (s.setDirectiveStep st).verdict = s.verdict := rfl
@[simp] theorem State.setDirectiveStep_directive (st : DirectiveStep) :
    (s.setDirectiveStep st).directive = { s.directive with step := st } := rfl
@[simp] theorem State.setDirectiveStep_report (st : DirectiveStep) : (s.setDirectiveStep st).report = s.report := rfl
@[simp] theorem State.setDirectiveStep_circuit (st : DirectiveStep) (k : Nat) : (s.setDirectiveStep st).circuit k = s.circuit k := rfl
@[simp] theorem State.setDirectiveStep_mapEntry (st : DirectiveStep) (k : Nat) : (s.setDirectiveStep st).mapEntry k = s.mapEntry k := rfl
@[simp] theorem State.setDirectiveStep_boundTo (st : DirectiveStep) (k : Nat) : (s.setDirectiveStep st).boundTo k = s.boundTo k := rfl
@[simp] theorem State.setDirectiveStep_count (st : DirectiveStep) (x : CircuitState) : (s.setDirectiveStep st).count x = s.count x := rfl
@[simp] theorem State.setDirectiveStep_circuitsWhere (st : DirectiveStep) (p : Circuit → Bool) : (s.setDirectiveStep st).circuitsWhere p = s.circuitsWhere p := rfl
@[simp] theorem State.setDirectiveStep_windowCircuits (st : DirectiveStep) : (s.setDirectiveStep st).windowCircuits = s.windowCircuits := rfl
@[simp] theorem State.setDirectiveStep_evidenceOf (st : DirectiveStep) (k : Nat) : (s.setDirectiveStep st).evidenceOf k = s.evidenceOf k := rfl

/-! ### addReady -/

@[simp] theorem State.addReady_pending (n : Nat) : (s.addReady n).pending = s.pending := rfl
@[simp] theorem State.addReady_inReset (n : Nat) : (s.addReady n).inReset = s.inReset := rfl
@[simp] theorem State.addReady_straps (n : Nat) : (s.addReady n).straps = s.straps := rfl
@[simp] theorem State.addReady_prescale (n : Nat) : (s.addReady n).prescale = s.prescale := rfl
@[simp] theorem State.addReady_layout (n : Nat) : (s.addReady n).layout = s.layout := rfl
@[simp] theorem State.addReady_pass (n : Nat) : (s.addReady n).pass = s.pass := rfl
@[simp] theorem State.addReady_arbiter (n : Nat) : (s.addReady n).arbiter = s.arbiter := rfl
@[simp] theorem State.addReady_store (n : Nat) : (s.addReady n).store = s.store := rfl
@[simp] theorem State.addReady_journal (n : Nat) : (s.addReady n).journal = s.journal := rfl
@[simp] theorem State.addReady_trace (n : Nat) : (s.addReady n).trace = s.trace := rfl
@[simp] theorem State.addReady_window (n : Nat) : (s.addReady n).window = s.window := rfl
@[simp] theorem State.addReady_sweep (n : Nat) : (s.addReady n).sweep = s.sweep := rfl
@[simp] theorem State.addReady_verdict (n : Nat) : (s.addReady n).verdict = s.verdict := rfl
@[simp] theorem State.addReady_directive (n : Nat) :
    (s.addReady n).directive = { s.directive with ready := Table.set false s.directive.ready n true } := rfl
@[simp] theorem State.addReady_report (n : Nat) : (s.addReady n).report = s.report := rfl
@[simp] theorem State.addReady_circuit (n : Nat) (k : Nat) : (s.addReady n).circuit k = s.circuit k := rfl
@[simp] theorem State.addReady_mapEntry (n : Nat) (k : Nat) : (s.addReady n).mapEntry k = s.mapEntry k := rfl
@[simp] theorem State.addReady_boundTo (n : Nat) (k : Nat) : (s.addReady n).boundTo k = s.boundTo k := rfl
@[simp] theorem State.addReady_count (n : Nat) (x : CircuitState) : (s.addReady n).count x = s.count x := rfl
@[simp] theorem State.addReady_circuitsWhere (n : Nat) (p : Circuit → Bool) : (s.addReady n).circuitsWhere p = s.circuitsWhere p := rfl
@[simp] theorem State.addReady_windowCircuits (n : Nat) : (s.addReady n).windowCircuits = s.windowCircuits := rfl
@[simp] theorem State.addReady_evidenceOf (n : Nat) (k : Nat) : (s.addReady n).evidenceOf k = s.evidenceOf k := rfl

/-! ### stopVerdictTimers -/

@[simp] theorem State.stopVerdictTimers_pending : s.stopVerdictTimers.pending = s.pending := rfl
@[simp] theorem State.stopVerdictTimers_inReset : s.stopVerdictTimers.inReset = s.inReset := rfl
@[simp] theorem State.stopVerdictTimers_straps : s.stopVerdictTimers.straps = s.straps := rfl
@[simp] theorem State.stopVerdictTimers_prescale : s.stopVerdictTimers.prescale = s.prescale := rfl
@[simp] theorem State.stopVerdictTimers_layout : s.stopVerdictTimers.layout = s.layout := rfl
@[simp] theorem State.stopVerdictTimers_pass : s.stopVerdictTimers.pass = s.pass := rfl
@[simp] theorem State.stopVerdictTimers_arbiter : s.stopVerdictTimers.arbiter = s.arbiter := rfl
@[simp] theorem State.stopVerdictTimers_store : s.stopVerdictTimers.store = s.store := rfl
@[simp] theorem State.stopVerdictTimers_journal : s.stopVerdictTimers.journal = s.journal := rfl
@[simp] theorem State.stopVerdictTimers_trace : s.stopVerdictTimers.trace = s.trace := rfl
@[simp] theorem State.stopVerdictTimers_window : s.stopVerdictTimers.window = s.window := rfl
@[simp] theorem State.stopVerdictTimers_sweep : s.stopVerdictTimers.sweep = s.sweep := rfl
@[simp] theorem State.stopVerdictTimers_verdict :
    s.stopVerdictTimers.verdict = { limit := s.verdict.limit.stop, steady := s.verdict.steady.stop } := rfl
@[simp] theorem State.stopVerdictTimers_directive : s.stopVerdictTimers.directive = s.directive := rfl
@[simp] theorem State.stopVerdictTimers_report : s.stopVerdictTimers.report = s.report := rfl
@[simp] theorem State.stopVerdictTimers_circuit (k : Nat) : s.stopVerdictTimers.circuit k = s.circuit k := rfl
@[simp] theorem State.stopVerdictTimers_mapEntry (k : Nat) : s.stopVerdictTimers.mapEntry k = s.mapEntry k := rfl
@[simp] theorem State.stopVerdictTimers_boundTo (k : Nat) : s.stopVerdictTimers.boundTo k = s.boundTo k := rfl
@[simp] theorem State.stopVerdictTimers_count (x : CircuitState) : s.stopVerdictTimers.count x = s.count x := rfl
@[simp] theorem State.stopVerdictTimers_circuitsWhere (p : Circuit → Bool) : s.stopVerdictTimers.circuitsWhere p = s.circuitsWhere p := rfl
@[simp] theorem State.stopVerdictTimers_windowCircuits : s.stopVerdictTimers.windowCircuits = s.windowCircuits := rfl
@[simp] theorem State.stopVerdictTimers_evidenceOf (k : Nat) : s.stopVerdictTimers.evidenceOf k = s.evidenceOf k := rfl

/-! ### answerMaster -/

@[simp] theorem State.answerMaster_pending (m : Master) (r : Response) : (s.answerMaster m r).pending = s.pending := rfl
@[simp] theorem State.answerMaster_inReset (m : Master) (r : Response) : (s.answerMaster m r).inReset = s.inReset := rfl
@[simp] theorem State.answerMaster_straps (m : Master) (r : Response) : (s.answerMaster m r).straps = s.straps := rfl
@[simp] theorem State.answerMaster_prescale (m : Master) (r : Response) : (s.answerMaster m r).prescale = s.prescale := rfl
@[simp] theorem State.answerMaster_layout (m : Master) (r : Response) : (s.answerMaster m r).layout = s.layout := rfl
@[simp] theorem State.answerMaster_pass (m : Master) (r : Response) :
    (s.answerMaster m r).pass = { s.pass with step := .idle, answer := some ⟨m, r⟩ } := rfl
@[simp] theorem State.answerMaster_arbiter (m : Master) (r : Response) : (s.answerMaster m r).arbiter = s.arbiter := rfl
@[simp] theorem State.answerMaster_store (m : Master) (r : Response) : (s.answerMaster m r).store = s.store := rfl
@[simp] theorem State.answerMaster_journal (m : Master) (r : Response) : (s.answerMaster m r).journal = s.journal := rfl
@[simp] theorem State.answerMaster_trace (m : Master) (r : Response) : (s.answerMaster m r).trace = s.trace := rfl
@[simp] theorem State.answerMaster_window (m : Master) (r : Response) : (s.answerMaster m r).window = s.window := rfl
@[simp] theorem State.answerMaster_sweep (m : Master) (r : Response) : (s.answerMaster m r).sweep = s.sweep := rfl
@[simp] theorem State.answerMaster_verdict (m : Master) (r : Response) : (s.answerMaster m r).verdict = s.verdict := rfl
@[simp] theorem State.answerMaster_directive (m : Master) (r : Response) : (s.answerMaster m r).directive = s.directive := rfl
@[simp] theorem State.answerMaster_report (m : Master) (r : Response) : (s.answerMaster m r).report = s.report := rfl
@[simp] theorem State.answerMaster_circuit (m : Master) (r : Response) (k : Nat) : (s.answerMaster m r).circuit k = s.circuit k := rfl
@[simp] theorem State.answerMaster_mapEntry (m : Master) (r : Response) (k : Nat) : (s.answerMaster m r).mapEntry k = s.mapEntry k := rfl
@[simp] theorem State.answerMaster_boundTo (m : Master) (r : Response) (k : Nat) : (s.answerMaster m r).boundTo k = s.boundTo k := rfl
@[simp] theorem State.answerMaster_count (m : Master) (r : Response) (x : CircuitState) : (s.answerMaster m r).count x = s.count x := rfl
@[simp] theorem State.answerMaster_circuitsWhere (m : Master) (r : Response) (p : Circuit → Bool) : (s.answerMaster m r).circuitsWhere p = s.circuitsWhere p := rfl
@[simp] theorem State.answerMaster_windowCircuits (m : Master) (r : Response) : (s.answerMaster m r).windowCircuits = s.windowCircuits := rfl
@[simp] theorem State.answerMaster_evidenceOf (m : Master) (r : Response) (k : Nat) : (s.answerMaster m r).evidenceOf k = s.evidenceOf k := rfl

/-! ### setUpStep -/

@[simp] theorem State.setUpStep_pending (st : UpStep) : (s.setUpStep st).pending = s.pending := rfl
@[simp] theorem State.setUpStep_inReset (st : UpStep) : (s.setUpStep st).inReset = s.inReset := rfl
@[simp] theorem State.setUpStep_straps (st : UpStep) : (s.setUpStep st).straps = s.straps := rfl
@[simp] theorem State.setUpStep_prescale (st : UpStep) : (s.setUpStep st).prescale = s.prescale := rfl
@[simp] theorem State.setUpStep_layout (st : UpStep) : (s.setUpStep st).layout = s.layout := rfl
@[simp] theorem State.setUpStep_pass (st : UpStep) :
    (s.setUpStep st).pass = { s.pass with step := st } := rfl
@[simp] theorem State.setUpStep_arbiter (st : UpStep) : (s.setUpStep st).arbiter = s.arbiter := rfl
@[simp] theorem State.setUpStep_store (st : UpStep) : (s.setUpStep st).store = s.store := rfl
@[simp] theorem State.setUpStep_journal (st : UpStep) : (s.setUpStep st).journal = s.journal := rfl
@[simp] theorem State.setUpStep_trace (st : UpStep) : (s.setUpStep st).trace = s.trace := rfl
@[simp] theorem State.setUpStep_window (st : UpStep) : (s.setUpStep st).window = s.window := rfl
@[simp] theorem State.setUpStep_sweep (st : UpStep) : (s.setUpStep st).sweep = s.sweep := rfl
@[simp] theorem State.setUpStep_verdict (st : UpStep) : (s.setUpStep st).verdict = s.verdict := rfl
@[simp] theorem State.setUpStep_directive (st : UpStep) : (s.setUpStep st).directive = s.directive := rfl
@[simp] theorem State.setUpStep_report (st : UpStep) : (s.setUpStep st).report = s.report := rfl
@[simp] theorem State.setUpStep_circuit (st : UpStep) (k : Nat) : (s.setUpStep st).circuit k = s.circuit k := rfl
@[simp] theorem State.setUpStep_mapEntry (st : UpStep) (k : Nat) : (s.setUpStep st).mapEntry k = s.mapEntry k := rfl
@[simp] theorem State.setUpStep_boundTo (st : UpStep) (k : Nat) : (s.setUpStep st).boundTo k = s.boundTo k := rfl
@[simp] theorem State.setUpStep_count (st : UpStep) (x : CircuitState) : (s.setUpStep st).count x = s.count x := rfl
@[simp] theorem State.setUpStep_circuitsWhere (st : UpStep) (p : Circuit → Bool) : (s.setUpStep st).circuitsWhere p = s.circuitsWhere p := rfl
@[simp] theorem State.setUpStep_windowCircuits (st : UpStep) : (s.setUpStep st).windowCircuits = s.windowCircuits := rfl
@[simp] theorem State.setUpStep_evidenceOf (st : UpStep) (k : Nat) : (s.setUpStep st).evidenceOf k = s.evidenceOf k := rfl

/-! ### setLate -/

@[simp] theorem State.setLate_pending (m : Master) (b : Bool) : (s.setLate m b).pending = s.pending := rfl
@[simp] theorem State.setLate_inReset (m : Master) (b : Bool) : (s.setLate m b).inReset = s.inReset := rfl
@[simp] theorem State.setLate_straps (m : Master) (b : Bool) : (s.setLate m b).straps = s.straps := rfl
@[simp] theorem State.setLate_prescale (m : Master) (b : Bool) : (s.setLate m b).prescale = s.prescale := rfl
@[simp] theorem State.setLate_layout (m : Master) (b : Bool) : (s.setLate m b).layout = s.layout := rfl
@[simp] theorem State.setLate_pass (m : Master) (b : Bool) :
    (s.setLate m b).pass = { s.pass with lateMarks := Table.set false s.pass.lateMarks m.toNat b } := rfl
@[simp] theorem State.setLate_arbiter (m : Master) (b : Bool) : (s.setLate m b).arbiter = s.arbiter := rfl
@[simp] theorem State.setLate_store (m : Master) (b : Bool) : (s.setLate m b).store = s.store := rfl
@[simp] theorem State.setLate_journal (m : Master) (b : Bool) : (s.setLate m b).journal = s.journal := rfl
@[simp] theorem State.setLate_trace (m : Master) (b : Bool) : (s.setLate m b).trace = s.trace := rfl
@[simp] theorem State.setLate_window (m : Master) (b : Bool) : (s.setLate m b).window = s.window := rfl
@[simp] theorem State.setLate_sweep (m : Master) (b : Bool) : (s.setLate m b).sweep = s.sweep := rfl
@[simp] theorem State.setLate_verdict (m : Master) (b : Bool) : (s.setLate m b).verdict = s.verdict := rfl
@[simp] theorem State.setLate_directive (m : Master) (b : Bool) : (s.setLate m b).directive = s.directive := rfl
@[simp] theorem State.setLate_report (m : Master) (b : Bool) : (s.setLate m b).report = s.report := rfl
@[simp] theorem State.setLate_circuit (m : Master) (b : Bool) (k : Nat) : (s.setLate m b).circuit k = s.circuit k := rfl
@[simp] theorem State.setLate_mapEntry (m : Master) (b : Bool) (k : Nat) : (s.setLate m b).mapEntry k = s.mapEntry k := rfl
@[simp] theorem State.setLate_boundTo (m : Master) (b : Bool) (k : Nat) : (s.setLate m b).boundTo k = s.boundTo k := rfl
@[simp] theorem State.setLate_count (m : Master) (b : Bool) (x : CircuitState) : (s.setLate m b).count x = s.count x := rfl
@[simp] theorem State.setLate_circuitsWhere (m : Master) (b : Bool) (p : Circuit → Bool) : (s.setLate m b).circuitsWhere p = s.circuitsWhere p := rfl
@[simp] theorem State.setLate_windowCircuits (m : Master) (b : Bool) : (s.setLate m b).windowCircuits = s.windowCircuits := rfl
@[simp] theorem State.setLate_evidenceOf (m : Master) (b : Bool) (k : Nat) : (s.setLate m b).evidenceOf k = s.evidenceOf k := rfl

/-! ### postWrite -/

@[simp] theorem State.postWrite_pending (a : Access) (d : Word) (l : Lanes) : (s.postWrite a d l).pending = s.pending := rfl
@[simp] theorem State.postWrite_inReset (a : Access) (d : Word) (l : Lanes) : (s.postWrite a d l).inReset = s.inReset := rfl
@[simp] theorem State.postWrite_straps (a : Access) (d : Word) (l : Lanes) : (s.postWrite a d l).straps = s.straps := rfl
@[simp] theorem State.postWrite_prescale (a : Access) (d : Word) (l : Lanes) : (s.postWrite a d l).prescale = s.prescale := rfl
@[simp] theorem State.postWrite_layout (a : Access) (d : Word) (l : Lanes) : (s.postWrite a d l).layout = s.layout := rfl
@[simp] theorem State.postWrite_arbiter (a : Access) (d : Word) (l : Lanes) : (s.postWrite a d l).arbiter = s.arbiter := rfl
@[simp] theorem State.postWrite_store (a : Access) (d : Word) (l : Lanes) : (s.postWrite a d l).store = s.store := rfl
@[simp] theorem State.postWrite_journal (a : Access) (d : Word) (l : Lanes) : (s.postWrite a d l).journal = s.journal := rfl
@[simp] theorem State.postWrite_trace (a : Access) (d : Word) (l : Lanes) : (s.postWrite a d l).trace = s.trace := rfl
@[simp] theorem State.postWrite_window (a : Access) (d : Word) (l : Lanes) : (s.postWrite a d l).window = s.window := rfl
@[simp] theorem State.postWrite_sweep (a : Access) (d : Word) (l : Lanes) : (s.postWrite a d l).sweep = s.sweep := rfl
@[simp] theorem State.postWrite_verdict (a : Access) (d : Word) (l : Lanes) : (s.postWrite a d l).verdict = s.verdict := rfl
@[simp] theorem State.postWrite_directive (a : Access) (d : Word) (l : Lanes) : (s.postWrite a d l).directive = s.directive := rfl
@[simp] theorem State.postWrite_report (a : Access) (d : Word) (l : Lanes) : (s.postWrite a d l).report = s.report := rfl
@[simp] theorem State.postWrite_circuit (a : Access) (d : Word) (l : Lanes) (k : Nat) : (s.postWrite a d l).circuit k = s.circuit k := rfl
@[simp] theorem State.postWrite_mapEntry (a : Access) (d : Word) (l : Lanes) (k : Nat) : (s.postWrite a d l).mapEntry k = s.mapEntry k := rfl
@[simp] theorem State.postWrite_boundTo (a : Access) (d : Word) (l : Lanes) (k : Nat) : (s.postWrite a d l).boundTo k = s.boundTo k := rfl
@[simp] theorem State.postWrite_count (a : Access) (d : Word) (l : Lanes) (x : CircuitState) : (s.postWrite a d l).count x = s.count x := rfl
@[simp] theorem State.postWrite_circuitsWhere (a : Access) (d : Word) (l : Lanes) (p : Circuit → Bool) : (s.postWrite a d l).circuitsWhere p = s.circuitsWhere p := rfl
@[simp] theorem State.postWrite_windowCircuits (a : Access) (d : Word) (l : Lanes) : (s.postWrite a d l).windowCircuits = s.windowCircuits := rfl
@[simp] theorem State.postWrite_evidenceOf (a : Access) (d : Word) (l : Lanes) (k : Nat) : (s.postWrite a d l).evidenceOf k = s.evidenceOf k := rfl

/-! ### setWriter -/

@[simp] theorem State.setWriter_pending (w : ReportWriter) : (s.setWriter w).pending = s.pending := rfl
@[simp] theorem State.setWriter_inReset (w : ReportWriter) : (s.setWriter w).inReset = s.inReset := rfl
@[simp] theorem State.setWriter_straps (w : ReportWriter) : (s.setWriter w).straps = s.straps := rfl
@[simp] theorem State.setWriter_prescale (w : ReportWriter) : (s.setWriter w).prescale = s.prescale := rfl
@[simp] theorem State.setWriter_layout (w : ReportWriter) : (s.setWriter w).layout = s.layout := rfl
@[simp] theorem State.setWriter_pass (w : ReportWriter) : (s.setWriter w).pass = s.pass := rfl
@[simp] theorem State.setWriter_arbiter (w : ReportWriter) : (s.setWriter w).arbiter = s.arbiter := rfl
@[simp] theorem State.setWriter_store (w : ReportWriter) : (s.setWriter w).store = s.store := rfl
@[simp] theorem State.setWriter_journal (w : ReportWriter) : (s.setWriter w).journal = s.journal := rfl
@[simp] theorem State.setWriter_trace (w : ReportWriter) : (s.setWriter w).trace = s.trace := rfl
@[simp] theorem State.setWriter_window (w : ReportWriter) : (s.setWriter w).window = s.window := rfl
@[simp] theorem State.setWriter_sweep (w : ReportWriter) : (s.setWriter w).sweep = s.sweep := rfl
@[simp] theorem State.setWriter_verdict (w : ReportWriter) : (s.setWriter w).verdict = s.verdict := rfl
@[simp] theorem State.setWriter_directive (w : ReportWriter) : (s.setWriter w).directive = s.directive := rfl
@[simp] theorem State.setWriter_report (w : ReportWriter) :
    (s.setWriter w).report = { s.report with writer := w } := rfl
@[simp] theorem State.setWriter_circuit (w : ReportWriter) (k : Nat) : (s.setWriter w).circuit k = s.circuit k := rfl
@[simp] theorem State.setWriter_mapEntry (w : ReportWriter) (k : Nat) : (s.setWriter w).mapEntry k = s.mapEntry k := rfl
@[simp] theorem State.setWriter_boundTo (w : ReportWriter) (k : Nat) : (s.setWriter w).boundTo k = s.boundTo k := rfl
@[simp] theorem State.setWriter_count (w : ReportWriter) (x : CircuitState) : (s.setWriter w).count x = s.count x := rfl
@[simp] theorem State.setWriter_circuitsWhere (w : ReportWriter) (p : Circuit → Bool) : (s.setWriter w).circuitsWhere p = s.circuitsWhere p := rfl
@[simp] theorem State.setWriter_windowCircuits (w : ReportWriter) : (s.setWriter w).windowCircuits = s.windowCircuits := rfl
@[simp] theorem State.setWriter_evidenceOf (w : ReportWriter) (k : Nat) : (s.setWriter w).evidenceOf k = s.evidenceOf k := rfl

/-! ### setSummary -/

@[simp] theorem State.setSummary_pending (w : SummaryWriter) : (s.setSummary w).pending = s.pending := rfl
@[simp] theorem State.setSummary_inReset (w : SummaryWriter) : (s.setSummary w).inReset = s.inReset := rfl
@[simp] theorem State.setSummary_straps (w : SummaryWriter) : (s.setSummary w).straps = s.straps := rfl
@[simp] theorem State.setSummary_prescale (w : SummaryWriter) : (s.setSummary w).prescale = s.prescale := rfl
@[simp] theorem State.setSummary_layout (w : SummaryWriter) : (s.setSummary w).layout = s.layout := rfl
@[simp] theorem State.setSummary_pass (w : SummaryWriter) : (s.setSummary w).pass = s.pass := rfl
@[simp] theorem State.setSummary_arbiter (w : SummaryWriter) : (s.setSummary w).arbiter = s.arbiter := rfl
@[simp] theorem State.setSummary_store (w : SummaryWriter) : (s.setSummary w).store = s.store := rfl
@[simp] theorem State.setSummary_journal (w : SummaryWriter) : (s.setSummary w).journal = s.journal := rfl
@[simp] theorem State.setSummary_trace (w : SummaryWriter) : (s.setSummary w).trace = s.trace := rfl
@[simp] theorem State.setSummary_window (w : SummaryWriter) : (s.setSummary w).window = s.window := rfl
@[simp] theorem State.setSummary_sweep (w : SummaryWriter) : (s.setSummary w).sweep = s.sweep := rfl
@[simp] theorem State.setSummary_verdict (w : SummaryWriter) : (s.setSummary w).verdict = s.verdict := rfl
@[simp] theorem State.setSummary_directive (w : SummaryWriter) : (s.setSummary w).directive = s.directive := rfl
@[simp] theorem State.setSummary_report (w : SummaryWriter) :
    (s.setSummary w).report = { s.report with summary := w } := rfl
@[simp] theorem State.setSummary_circuit (w : SummaryWriter) (k : Nat) : (s.setSummary w).circuit k = s.circuit k := rfl
@[simp] theorem State.setSummary_mapEntry (w : SummaryWriter) (k : Nat) : (s.setSummary w).mapEntry k = s.mapEntry k := rfl
@[simp] theorem State.setSummary_boundTo (w : SummaryWriter) (k : Nat) : (s.setSummary w).boundTo k = s.boundTo k := rfl
@[simp] theorem State.setSummary_count (w : SummaryWriter) (x : CircuitState) : (s.setSummary w).count x = s.count x := rfl
@[simp] theorem State.setSummary_circuitsWhere (w : SummaryWriter) (p : Circuit → Bool) : (s.setSummary w).circuitsWhere p = s.circuitsWhere p := rfl
@[simp] theorem State.setSummary_windowCircuits (w : SummaryWriter) : (s.setSummary w).windowCircuits = s.windowCircuits := rfl
@[simp] theorem State.setSummary_evidenceOf (w : SummaryWriter) (k : Nat) : (s.setSummary w).evidenceOf k = s.evidenceOf k := rfl

/-! ### startSummary -/

@[simp] theorem State.startSummary_pending : s.startSummary.pending = s.pending := rfl
@[simp] theorem State.startSummary_inReset : s.startSummary.inReset = s.inReset := rfl
@[simp] theorem State.startSummary_straps : s.startSummary.straps = s.straps := rfl
@[simp] theorem State.startSummary_prescale : s.startSummary.prescale = s.prescale := rfl
@[simp] theorem State.startSummary_layout : s.startSummary.layout = s.layout := rfl
@[simp] theorem State.startSummary_pass : s.startSummary.pass = s.pass := rfl
@[simp] theorem State.startSummary_store : s.startSummary.store = s.store := rfl
@[simp] theorem State.startSummary_journal : s.startSummary.journal = s.journal := rfl
@[simp] theorem State.startSummary_trace : s.startSummary.trace = s.trace := rfl
@[simp] theorem State.startSummary_window : s.startSummary.window = s.window := rfl
@[simp] theorem State.startSummary_sweep : s.startSummary.sweep = s.sweep := rfl
@[simp] theorem State.startSummary_verdict : s.startSummary.verdict = s.verdict := rfl
@[simp] theorem State.startSummary_directive : s.startSummary.directive = s.directive := rfl
@[simp] theorem State.startSummary_circuit (k : Nat) : s.startSummary.circuit k = s.circuit k := rfl
@[simp] theorem State.startSummary_mapEntry (k : Nat) : s.startSummary.mapEntry k = s.mapEntry k := rfl
@[simp] theorem State.startSummary_boundTo (k : Nat) : s.startSummary.boundTo k = s.boundTo k := rfl
@[simp] theorem State.startSummary_count (x : CircuitState) : s.startSummary.count x = s.count x := rfl
@[simp] theorem State.startSummary_circuitsWhere (p : Circuit → Bool) : s.startSummary.circuitsWhere p = s.circuitsWhere p := rfl
@[simp] theorem State.startSummary_windowCircuits : s.startSummary.windowCircuits = s.windowCircuits := rfl
@[simp] theorem State.startSummary_evidenceOf (k : Nat) : s.startSummary.evidenceOf k = s.evidenceOf k := rfl

/-! ### endPulse -/

@[simp] theorem State.endPulse_pending : s.endPulse.pending = s.pending := rfl
@[simp] theorem State.endPulse_inReset : s.endPulse.inReset = s.inReset := rfl
@[simp] theorem State.endPulse_straps : s.endPulse.straps = s.straps := rfl
@[simp] theorem State.endPulse_prescale : s.endPulse.prescale = s.prescale := rfl
@[simp] theorem State.endPulse_layout : s.endPulse.layout = s.layout := rfl
@[simp] theorem State.endPulse_pass : s.endPulse.pass = s.pass := rfl
@[simp] theorem State.endPulse_arbiter : s.endPulse.arbiter = s.arbiter := rfl
@[simp] theorem State.endPulse_store : s.endPulse.store = s.store := rfl
@[simp] theorem State.endPulse_journal : s.endPulse.journal = s.journal := rfl
@[simp] theorem State.endPulse_trace : s.endPulse.trace = s.trace := rfl
@[simp] theorem State.endPulse_window : s.endPulse.window = s.window := rfl
@[simp] theorem State.endPulse_sweep : s.endPulse.sweep = s.sweep := rfl
@[simp] theorem State.endPulse_verdict : s.endPulse.verdict = s.verdict := rfl
@[simp] theorem State.endPulse_directive : s.endPulse.directive = s.directive := rfl
@[simp] theorem State.endPulse_report :
    s.endPulse.report = { s.report with attn := none } := rfl
@[simp] theorem State.endPulse_circuit (k : Nat) : s.endPulse.circuit k = s.circuit k := rfl
@[simp] theorem State.endPulse_mapEntry (k : Nat) : s.endPulse.mapEntry k = s.mapEntry k := rfl
@[simp] theorem State.endPulse_boundTo (k : Nat) : s.endPulse.boundTo k = s.boundTo k := rfl
@[simp] theorem State.endPulse_count (x : CircuitState) : s.endPulse.count x = s.count x := rfl
@[simp] theorem State.endPulse_circuitsWhere (p : Circuit → Bool) : s.endPulse.circuitsWhere p = s.circuitsWhere p := rfl
@[simp] theorem State.endPulse_windowCircuits : s.endPulse.windowCircuits = s.windowCircuits := rfl
@[simp] theorem State.endPulse_evidenceOf (k : Nat) : s.endPulse.evidenceOf k = s.evidenceOf k := rfl

/-! ### mapCircuit -/

@[simp] theorem State.mapCircuit_pending (c : Nat) (f : Circuit → Circuit) : (s.mapCircuit c f).pending = s.pending := rfl
@[simp] theorem State.mapCircuit_inReset (c : Nat) (f : Circuit → Circuit) : (s.mapCircuit c f).inReset = s.inReset := rfl
@[simp] theorem State.mapCircuit_straps (c : Nat) (f : Circuit → Circuit) : (s.mapCircuit c f).straps = s.straps := rfl
@[simp] theorem State.mapCircuit_prescale (c : Nat) (f : Circuit → Circuit) : (s.mapCircuit c f).prescale = s.prescale := rfl
@[simp] theorem State.mapCircuit_layout (c : Nat) (f : Circuit → Circuit) : (s.mapCircuit c f).layout = s.layout := rfl
@[simp] theorem State.mapCircuit_pass (c : Nat) (f : Circuit → Circuit) : (s.mapCircuit c f).pass = s.pass := rfl
@[simp] theorem State.mapCircuit_arbiter (c : Nat) (f : Circuit → Circuit) : (s.mapCircuit c f).arbiter = s.arbiter := rfl
@[simp] theorem State.mapCircuit_journal (c : Nat) (f : Circuit → Circuit) : (s.mapCircuit c f).journal = s.journal := rfl
@[simp] theorem State.mapCircuit_trace (c : Nat) (f : Circuit → Circuit) : (s.mapCircuit c f).trace = s.trace := rfl
@[simp] theorem State.mapCircuit_window (c : Nat) (f : Circuit → Circuit) : (s.mapCircuit c f).window = s.window := rfl
@[simp] theorem State.mapCircuit_sweep (c : Nat) (f : Circuit → Circuit) : (s.mapCircuit c f).sweep = s.sweep := rfl
@[simp] theorem State.mapCircuit_verdict (c : Nat) (f : Circuit → Circuit) : (s.mapCircuit c f).verdict = s.verdict := rfl
@[simp] theorem State.mapCircuit_directive (c : Nat) (f : Circuit → Circuit) : (s.mapCircuit c f).directive = s.directive := rfl
@[simp] theorem State.mapCircuit_report (c : Nat) (f : Circuit → Circuit) : (s.mapCircuit c f).report = s.report := rfl
@[simp] theorem State.mapCircuit_evidenceOf (c : Nat) (f : Circuit → Circuit) (k : Nat) : (s.mapCircuit c f).evidenceOf k = s.evidenceOf k := rfl

/-! ### bumpChanges -/

@[simp] theorem State.bumpChanges_pending (c : Nat) : (s.bumpChanges c).pending = s.pending := rfl
@[simp] theorem State.bumpChanges_inReset (c : Nat) : (s.bumpChanges c).inReset = s.inReset := rfl
@[simp] theorem State.bumpChanges_straps (c : Nat) : (s.bumpChanges c).straps = s.straps := rfl
@[simp] theorem State.bumpChanges_prescale (c : Nat) : (s.bumpChanges c).prescale = s.prescale := rfl
@[simp] theorem State.bumpChanges_layout (c : Nat) : (s.bumpChanges c).layout = s.layout := rfl
@[simp] theorem State.bumpChanges_pass (c : Nat) : (s.bumpChanges c).pass = s.pass := rfl
@[simp] theorem State.bumpChanges_arbiter (c : Nat) : (s.bumpChanges c).arbiter = s.arbiter := rfl
@[simp] theorem State.bumpChanges_journal (c : Nat) : (s.bumpChanges c).journal = s.journal := rfl
@[simp] theorem State.bumpChanges_trace (c : Nat) : (s.bumpChanges c).trace = s.trace := rfl
@[simp] theorem State.bumpChanges_window (c : Nat) : (s.bumpChanges c).window = s.window := rfl
@[simp] theorem State.bumpChanges_sweep (c : Nat) : (s.bumpChanges c).sweep = s.sweep := rfl
@[simp] theorem State.bumpChanges_verdict (c : Nat) : (s.bumpChanges c).verdict = s.verdict := rfl
@[simp] theorem State.bumpChanges_directive (c : Nat) : (s.bumpChanges c).directive = s.directive := rfl
@[simp] theorem State.bumpChanges_report (c : Nat) : (s.bumpChanges c).report = s.report := rfl
@[simp] theorem State.bumpChanges_evidenceOf (c : Nat) (k : Nat) : (s.bumpChanges c).evidenceOf k = s.evidenceOf k := rfl

/-! ### refence -/

@[simp] theorem State.refence_pending (i : Nat) : (s.refence i).pending = s.pending := rfl
@[simp] theorem State.refence_inReset (i : Nat) : (s.refence i).inReset = s.inReset := rfl
@[simp] theorem State.refence_straps (i : Nat) : (s.refence i).straps = s.straps := rfl
@[simp] theorem State.refence_prescale (i : Nat) : (s.refence i).prescale = s.prescale := rfl
@[simp] theorem State.refence_layout (i : Nat) : (s.refence i).layout = s.layout := rfl
@[simp] theorem State.refence_pass (i : Nat) : (s.refence i).pass = s.pass := rfl
@[simp] theorem State.refence_arbiter (i : Nat) : (s.refence i).arbiter = s.arbiter := rfl
@[simp] theorem State.refence_journal (i : Nat) : (s.refence i).journal = s.journal := rfl
@[simp] theorem State.refence_trace (i : Nat) : (s.refence i).trace = s.trace := rfl
@[simp] theorem State.refence_window (i : Nat) : (s.refence i).window = s.window := rfl
@[simp] theorem State.refence_sweep (i : Nat) : (s.refence i).sweep = s.sweep := rfl
@[simp] theorem State.refence_verdict (i : Nat) : (s.refence i).verdict = s.verdict := rfl
@[simp] theorem State.refence_directive (i : Nat) : (s.refence i).directive = s.directive := rfl
@[simp] theorem State.refence_report (i : Nat) : (s.refence i).report = s.report := rfl
@[simp] theorem State.refence_evidenceOf (i : Nat) (k : Nat) : (s.refence i).evidenceOf k = s.evidenceOf k := rfl

/-! ### unclaim -/

@[simp] theorem State.unclaim_pending (i : Nat) : (s.unclaim i).pending = s.pending := rfl
@[simp] theorem State.unclaim_inReset (i : Nat) : (s.unclaim i).inReset = s.inReset := rfl
@[simp] theorem State.unclaim_straps (i : Nat) : (s.unclaim i).straps = s.straps := rfl
@[simp] theorem State.unclaim_prescale (i : Nat) : (s.unclaim i).prescale = s.prescale := rfl
@[simp] theorem State.unclaim_layout (i : Nat) : (s.unclaim i).layout = s.layout := rfl
@[simp] theorem State.unclaim_pass (i : Nat) : (s.unclaim i).pass = s.pass := rfl
@[simp] theorem State.unclaim_arbiter (i : Nat) : (s.unclaim i).arbiter = s.arbiter := rfl
@[simp] theorem State.unclaim_journal (i : Nat) : (s.unclaim i).journal = s.journal := rfl
@[simp] theorem State.unclaim_trace (i : Nat) : (s.unclaim i).trace = s.trace := rfl
@[simp] theorem State.unclaim_window (i : Nat) : (s.unclaim i).window = s.window := rfl
@[simp] theorem State.unclaim_sweep (i : Nat) : (s.unclaim i).sweep = s.sweep := rfl
@[simp] theorem State.unclaim_verdict (i : Nat) : (s.unclaim i).verdict = s.verdict := rfl
@[simp] theorem State.unclaim_directive (i : Nat) : (s.unclaim i).directive = s.directive := rfl
@[simp] theorem State.unclaim_report (i : Nat) : (s.unclaim i).report = s.report := rfl
@[simp] theorem State.unclaim_evidenceOf (i : Nat) (k : Nat) : (s.unclaim i).evidenceOf k = s.evidenceOf k := rfl

/-! ### mapEvidence -/

@[simp] theorem State.mapEvidence_pending (ch : Nat) (f : Evidence → Evidence) : (s.mapEvidence ch f).pending = s.pending := rfl
@[simp] theorem State.mapEvidence_inReset (ch : Nat) (f : Evidence → Evidence) : (s.mapEvidence ch f).inReset = s.inReset := rfl
@[simp] theorem State.mapEvidence_straps (ch : Nat) (f : Evidence → Evidence) : (s.mapEvidence ch f).straps = s.straps := rfl
@[simp] theorem State.mapEvidence_prescale (ch : Nat) (f : Evidence → Evidence) : (s.mapEvidence ch f).prescale = s.prescale := rfl
@[simp] theorem State.mapEvidence_layout (ch : Nat) (f : Evidence → Evidence) : (s.mapEvidence ch f).layout = s.layout := rfl
@[simp] theorem State.mapEvidence_pass (ch : Nat) (f : Evidence → Evidence) : (s.mapEvidence ch f).pass = s.pass := rfl
@[simp] theorem State.mapEvidence_arbiter (ch : Nat) (f : Evidence → Evidence) : (s.mapEvidence ch f).arbiter = s.arbiter := rfl
@[simp] theorem State.mapEvidence_store (ch : Nat) (f : Evidence → Evidence) : (s.mapEvidence ch f).store = s.store := rfl
@[simp] theorem State.mapEvidence_journal (ch : Nat) (f : Evidence → Evidence) : (s.mapEvidence ch f).journal = s.journal := rfl
@[simp] theorem State.mapEvidence_window (ch : Nat) (f : Evidence → Evidence) : (s.mapEvidence ch f).window = s.window := rfl
@[simp] theorem State.mapEvidence_sweep (ch : Nat) (f : Evidence → Evidence) : (s.mapEvidence ch f).sweep = s.sweep := rfl
@[simp] theorem State.mapEvidence_verdict (ch : Nat) (f : Evidence → Evidence) : (s.mapEvidence ch f).verdict = s.verdict := rfl
@[simp] theorem State.mapEvidence_directive (ch : Nat) (f : Evidence → Evidence) : (s.mapEvidence ch f).directive = s.directive := rfl
@[simp] theorem State.mapEvidence_report (ch : Nat) (f : Evidence → Evidence) : (s.mapEvidence ch f).report = s.report := rfl
@[simp] theorem State.mapEvidence_circuit (ch : Nat) (f : Evidence → Evidence) (k : Nat) : (s.mapEvidence ch f).circuit k = s.circuit k := rfl
@[simp] theorem State.mapEvidence_mapEntry (ch : Nat) (f : Evidence → Evidence) (k : Nat) : (s.mapEvidence ch f).mapEntry k = s.mapEntry k := rfl
@[simp] theorem State.mapEvidence_boundTo (ch : Nat) (f : Evidence → Evidence) (k : Nat) : (s.mapEvidence ch f).boundTo k = s.boundTo k := rfl
@[simp] theorem State.mapEvidence_count (ch : Nat) (f : Evidence → Evidence) (x : CircuitState) : (s.mapEvidence ch f).count x = s.count x := rfl
@[simp] theorem State.mapEvidence_circuitsWhere (ch : Nat) (f : Evidence → Evidence) (p : Circuit → Bool) : (s.mapEvidence ch f).circuitsWhere p = s.circuitsWhere p := rfl
@[simp] theorem State.mapEvidence_windowCircuits (ch : Nat) (f : Evidence → Evidence) : (s.mapEvidence ch f).windowCircuits = s.windowCircuits := rfl

/-! ### setSilence -/

@[simp] theorem State.setSilence_pending (ch : Nat) (t : Timer) : (s.setSilence ch t).pending = s.pending := rfl
@[simp] theorem State.setSilence_inReset (ch : Nat) (t : Timer) : (s.setSilence ch t).inReset = s.inReset := rfl
@[simp] theorem State.setSilence_straps (ch : Nat) (t : Timer) : (s.setSilence ch t).straps = s.straps := rfl
@[simp] theorem State.setSilence_prescale (ch : Nat) (t : Timer) : (s.setSilence ch t).prescale = s.prescale := rfl
@[simp] theorem State.setSilence_layout (ch : Nat) (t : Timer) : (s.setSilence ch t).layout = s.layout := rfl
@[simp] theorem State.setSilence_pass (ch : Nat) (t : Timer) : (s.setSilence ch t).pass = s.pass := rfl
@[simp] theorem State.setSilence_arbiter (ch : Nat) (t : Timer) : (s.setSilence ch t).arbiter = s.arbiter := rfl
@[simp] theorem State.setSilence_store (ch : Nat) (t : Timer) : (s.setSilence ch t).store = s.store := rfl
@[simp] theorem State.setSilence_journal (ch : Nat) (t : Timer) : (s.setSilence ch t).journal = s.journal := rfl
@[simp] theorem State.setSilence_window (ch : Nat) (t : Timer) : (s.setSilence ch t).window = s.window := rfl
@[simp] theorem State.setSilence_sweep (ch : Nat) (t : Timer) : (s.setSilence ch t).sweep = s.sweep := rfl
@[simp] theorem State.setSilence_verdict (ch : Nat) (t : Timer) : (s.setSilence ch t).verdict = s.verdict := rfl
@[simp] theorem State.setSilence_directive (ch : Nat) (t : Timer) : (s.setSilence ch t).directive = s.directive := rfl
@[simp] theorem State.setSilence_report (ch : Nat) (t : Timer) : (s.setSilence ch t).report = s.report := rfl
@[simp] theorem State.setSilence_circuit (ch : Nat) (t : Timer) (k : Nat) : (s.setSilence ch t).circuit k = s.circuit k := rfl
@[simp] theorem State.setSilence_mapEntry (ch : Nat) (t : Timer) (k : Nat) : (s.setSilence ch t).mapEntry k = s.mapEntry k := rfl
@[simp] theorem State.setSilence_boundTo (ch : Nat) (t : Timer) (k : Nat) : (s.setSilence ch t).boundTo k = s.boundTo k := rfl
@[simp] theorem State.setSilence_count (ch : Nat) (t : Timer) (x : CircuitState) : (s.setSilence ch t).count x = s.count x := rfl
@[simp] theorem State.setSilence_circuitsWhere (ch : Nat) (t : Timer) (p : Circuit → Bool) : (s.setSilence ch t).circuitsWhere p = s.circuitsWhere p := rfl
@[simp] theorem State.setSilence_windowCircuits (ch : Nat) (t : Timer) : (s.setSilence ch t).windowCircuits = s.windowCircuits := rfl

/-! ### resetEvidence -/

@[simp] theorem State.resetEvidence_pending (ch : Nat) : (s.resetEvidence ch).pending = s.pending := rfl
@[simp] theorem State.resetEvidence_inReset (ch : Nat) : (s.resetEvidence ch).inReset = s.inReset := rfl
@[simp] theorem State.resetEvidence_straps (ch : Nat) : (s.resetEvidence ch).straps = s.straps := rfl
@[simp] theorem State.resetEvidence_prescale (ch : Nat) : (s.resetEvidence ch).prescale = s.prescale := rfl
@[simp] theorem State.resetEvidence_layout (ch : Nat) : (s.resetEvidence ch).layout = s.layout := rfl
@[simp] theorem State.resetEvidence_pass (ch : Nat) : (s.resetEvidence ch).pass = s.pass := rfl
@[simp] theorem State.resetEvidence_arbiter (ch : Nat) : (s.resetEvidence ch).arbiter = s.arbiter := rfl
@[simp] theorem State.resetEvidence_store (ch : Nat) : (s.resetEvidence ch).store = s.store := rfl
@[simp] theorem State.resetEvidence_journal (ch : Nat) : (s.resetEvidence ch).journal = s.journal := rfl
@[simp] theorem State.resetEvidence_window (ch : Nat) : (s.resetEvidence ch).window = s.window := rfl
@[simp] theorem State.resetEvidence_sweep (ch : Nat) : (s.resetEvidence ch).sweep = s.sweep := rfl
@[simp] theorem State.resetEvidence_verdict (ch : Nat) : (s.resetEvidence ch).verdict = s.verdict := rfl
@[simp] theorem State.resetEvidence_directive (ch : Nat) : (s.resetEvidence ch).directive = s.directive := rfl
@[simp] theorem State.resetEvidence_report (ch : Nat) : (s.resetEvidence ch).report = s.report := rfl
@[simp] theorem State.resetEvidence_circuit (ch : Nat) (k : Nat) : (s.resetEvidence ch).circuit k = s.circuit k := rfl
@[simp] theorem State.resetEvidence_mapEntry (ch : Nat) (k : Nat) : (s.resetEvidence ch).mapEntry k = s.mapEntry k := rfl
@[simp] theorem State.resetEvidence_boundTo (ch : Nat) (k : Nat) : (s.resetEvidence ch).boundTo k = s.boundTo k := rfl
@[simp] theorem State.resetEvidence_count (ch : Nat) (x : CircuitState) : (s.resetEvidence ch).count x = s.count x := rfl
@[simp] theorem State.resetEvidence_circuitsWhere (ch : Nat) (p : Circuit → Bool) : (s.resetEvidence ch).circuitsWhere p = s.circuitsWhere p := rfl
@[simp] theorem State.resetEvidence_windowCircuits (ch : Nat) : (s.resetEvidence ch).windowCircuits = s.windowCircuits := rfl

/-! ### unbind -/

@[simp] theorem State.unbind_pending (ch : Nat) : (s.unbind ch).pending = s.pending := rfl
@[simp] theorem State.unbind_inReset (ch : Nat) : (s.unbind ch).inReset = s.inReset := rfl
@[simp] theorem State.unbind_straps (ch : Nat) : (s.unbind ch).straps = s.straps := rfl
@[simp] theorem State.unbind_prescale (ch : Nat) : (s.unbind ch).prescale = s.prescale := rfl
@[simp] theorem State.unbind_layout (ch : Nat) : (s.unbind ch).layout = s.layout := rfl
@[simp] theorem State.unbind_pass (ch : Nat) : (s.unbind ch).pass = s.pass := rfl
@[simp] theorem State.unbind_arbiter (ch : Nat) : (s.unbind ch).arbiter = s.arbiter := rfl
@[simp] theorem State.unbind_journal (ch : Nat) : (s.unbind ch).journal = s.journal := rfl
@[simp] theorem State.unbind_window (ch : Nat) : (s.unbind ch).window = s.window := rfl
@[simp] theorem State.unbind_sweep (ch : Nat) : (s.unbind ch).sweep = s.sweep := rfl
@[simp] theorem State.unbind_verdict (ch : Nat) : (s.unbind ch).verdict = s.verdict := rfl
@[simp] theorem State.unbind_directive (ch : Nat) : (s.unbind ch).directive = s.directive := rfl
@[simp] theorem State.unbind_report (ch : Nat) : (s.unbind ch).report = s.report := rfl

/-! ### moveCount -/

@[simp] theorem State.moveCount_pending (a b : CircuitState) : (s.moveCount a b).pending = s.pending := rfl
@[simp] theorem State.moveCount_inReset (a b : CircuitState) : (s.moveCount a b).inReset = s.inReset := rfl
@[simp] theorem State.moveCount_straps (a b : CircuitState) : (s.moveCount a b).straps = s.straps := rfl
@[simp] theorem State.moveCount_prescale (a b : CircuitState) : (s.moveCount a b).prescale = s.prescale := rfl
@[simp] theorem State.moveCount_layout (a b : CircuitState) : (s.moveCount a b).layout = s.layout := rfl
@[simp] theorem State.moveCount_pass (a b : CircuitState) : (s.moveCount a b).pass = s.pass := rfl
@[simp] theorem State.moveCount_arbiter (a b : CircuitState) : (s.moveCount a b).arbiter = s.arbiter := rfl
@[simp] theorem State.moveCount_journal (a b : CircuitState) : (s.moveCount a b).journal = s.journal := rfl
@[simp] theorem State.moveCount_trace (a b : CircuitState) : (s.moveCount a b).trace = s.trace := rfl
@[simp] theorem State.moveCount_window (a b : CircuitState) : (s.moveCount a b).window = s.window := rfl
@[simp] theorem State.moveCount_sweep (a b : CircuitState) : (s.moveCount a b).sweep = s.sweep := rfl
@[simp] theorem State.moveCount_verdict (a b : CircuitState) : (s.moveCount a b).verdict = s.verdict := rfl
@[simp] theorem State.moveCount_directive (a b : CircuitState) : (s.moveCount a b).directive = s.directive := rfl
@[simp] theorem State.moveCount_report (a b : CircuitState) :
    (s.moveCount a b).report = { s.report with wanted := true } := rfl
@[simp] theorem State.moveCount_evidenceOf (a b : CircuitState) (k : Nat) : (s.moveCount a b).evidenceOf k = s.evidenceOf k := rfl

/-! ### Reading what was written -/

@[simp] theorem State.putCircuit_circuit (c : Nat) (r : Circuit) (k : Nat) :
    (s.putCircuit c r).circuit k = if k = c then r else s.circuit k := by simp [State.circuit]

@[simp] theorem State.putCircuit_mapEntry (c : Nat) (r : Circuit) (k : Nat) :
    (s.putCircuit c r).mapEntry k = s.mapEntry k := rfl

@[simp] theorem State.putCircuit_boundTo (c : Nat) (r : Circuit) (k : Nat) :
    (s.putCircuit c r).boundTo k = s.boundTo k := rfl

@[simp] theorem State.putCircuit_count (c : Nat) (r : Circuit) (x : CircuitState) :
    (s.putCircuit c r).count x = s.count x := rfl

@[simp] theorem State.putEntry_mapEntry (i : Nat) (e : MapEntry) (k : Nat) :
    (s.putEntry i e).mapEntry k = if k = i then e else s.mapEntry k := by simp [State.mapEntry]

@[simp] theorem State.putEntry_circuit (i : Nat) (e : MapEntry) (k : Nat) :
    (s.putEntry i e).circuit k = s.circuit k := rfl

@[simp] theorem State.putEntry_boundTo (i : Nat) (e : MapEntry) (k : Nat) :
    (s.putEntry i e).boundTo k = s.boundTo k := rfl

@[simp] theorem State.putEntry_count (i : Nat) (e : MapEntry) (x : CircuitState) :
    (s.putEntry i e).count x = s.count x := rfl

@[simp] theorem State.putBinding_boundTo (ch : Nat) (b : Option Nat) (k : Nat) :
    (s.putBinding ch b).boundTo k = if k = ch then b else s.boundTo k := by simp [State.boundTo]

@[simp] theorem State.putBinding_circuit (ch : Nat) (b : Option Nat) (k : Nat) :
    (s.putBinding ch b).circuit k = s.circuit k := rfl

@[simp] theorem State.putBinding_mapEntry (ch : Nat) (b : Option Nat) (k : Nat) :
    (s.putBinding ch b).mapEntry k = s.mapEntry k := rfl

@[simp] theorem State.putBinding_count (ch : Nat) (b : Option Nat) (x : CircuitState) :
    (s.putBinding ch b).count x = s.count x := rfl

/-- Distinct circuit states have distinct codes (section 11.1). -/
theorem CircuitState.code_inj {a b : CircuitState} : a.code = b.code ↔ a = b := by
  cases a <;> cases b <;> decide

@[simp] theorem State.putCount_count (st : CircuitState) (n : Nat) (x : CircuitState) :
    (s.putCount st n).count x = if x = st then n else s.count x := by
  simp [State.count, CircuitState.code_inj]

@[simp] theorem State.putCount_circuit (st : CircuitState) (n k : Nat) :
    (s.putCount st n).circuit k = s.circuit k := rfl

@[simp] theorem State.putCount_mapEntry (st : CircuitState) (n k : Nat) :
    (s.putCount st n).mapEntry k = s.mapEntry k := rfl

@[simp] theorem State.putCount_boundTo (st : CircuitState) (n k : Nat) :
    (s.putCount st n).boundTo k = s.boundTo k := rfl

@[simp] theorem State.putEvidence_evidenceOf (ch : Nat) (e : Evidence) (k : Nat) :
    (s.putEvidence ch e).evidenceOf k = if k = ch then e else s.evidenceOf k := by simp [State.evidenceOf]

@[simp] theorem State.mapCircuit_circuit (c : Nat) (f : Circuit → Circuit) (k : Nat) :
    (s.mapCircuit c f).circuit k = if k = c then f (s.circuit c) else s.circuit k := by
  simp [State.mapCircuit]

@[simp] theorem State.mapEvidence_evidenceOf (ch : Nat) (f : Evidence → Evidence) (k : Nat) :
    (s.mapEvidence ch f).evidenceOf k = if k = ch then f (s.evidenceOf ch) else s.evidenceOf k := by
  simp [State.mapEvidence]

@[simp] theorem State.setSilence_evidenceOf (ch : Nat) (t : Timer) (k : Nat) :
    (s.setSilence ch t).evidenceOf k
      = if k = ch then { s.evidenceOf ch with silence := t } else s.evidenceOf k := by
  simp [State.setSilence]

@[simp] theorem State.setLate_isLate (m : Master) (b : Bool) (k : Master) :
    (s.setLate m b).isLate k = if k = m then b else s.isLate k := by
  simp [State.isLate, BitVec.toNat_inj]

@[simp] theorem State.oweCircuit_owes (c k : Nat) :
    Table.get false (s.oweCircuit c).report.owed k = if k = c then true else Table.get false s.report.owed k := by
  simp

@[simp] theorem State.addReady_ready (n k : Nat) :
    Table.get false (s.addReady n).directive.ready k
      = if k = n then true else Table.get false s.directive.ready k := by
  simp

end Sys2Proof.Machine
end

