-- ==== Sys2Proof/Laws/Ops.lean ====
section
/-!
SUPPORT. One lemma for each shared operation that says all it can do, to cite instead of unfolding the operation: first
what it leaves alone (its frame: the blocks it can change), then what reading the tables gives after it.
-/

namespace Sys2Proof.Machine

variable (s : State)

/-! ### Folding an effect over a list -/

/-- What every single effect keeps, the fold keeps. -/
theorem State.forEach_keeps {β : Sort _} (view : State → β) (f : State → Nat → State)
    (h : ∀ s c, view (f s c) = view s) (cs : List Nat) : view (s.forEach cs f) = view s := by
  induction cs generalizing s with
  | nil => rfl
  | cons c rest ih => exact (ih (f s c)).trans (h s c)

/-- What holds at the start and every single effect keeps holds after the fold. -/
theorem State.forEach_induct (P : State → Prop) (f : State → Nat → State) (cs : List Nat)
    (h : ∀ s c, c ∈ cs → P s → P (f s c)) (h0 : P s) : P (s.forEach cs f) := by
  induction cs generalizing s with
  | nil => exact h0
  | cons c rest ih =>
    exact ih (f s c) (fun s c hc => h s c (by simp [hc])) (h s c (by simp) h0)

/-- What the effect keeps is kept, whether or not there is a number. -/
theorem State.forSome_keeps {β : Sort _} (view : State → β) (f : State → Nat → State)
    (h : ∀ s c, view (f s c) = view s) (o : Option Nat) : view (s.forSome o f) = view s := by
  cases o with
  | none => rfl
  | some c => exact h s c

/-! ### Attention and the marks of the Report Unit -/

/-- R169: a cause raised with its enable clear changes nothing. -/
theorem State.raise_disabled (c : Cause) (h : s.report.enables &&& c.mask = 0) : s.raise c = s := if_pos h

/-- R169: a cause raised with its enable set. -/
theorem State.raise_enabled (c : Cause) (h : s.report.enables &&& c.mask ≠ 0) :
    s.raise c = { s with report := { s.report with
      pending := s.report.pending ||| c.mask
      unseen := s.report.unseen ||| c.mask
      raised := s.report.raised ||| c.mask
      attn := if s.report.pending = 0 then some 25 else s.report.attn
      wanted := s.report.wanted || decide (s.report.pending &&& c.mask = 0) } } := if_neg h

/-- R169: a raise changes only marks of the Report Unit. -/
theorem State.raise_frame (c : Cause) :
    s.raise c = { s with report := { s.report with
      pending := (s.raise c).report.pending, unseen := (s.raise c).report.unseen
      raised := (s.raise c).report.raised, attn := (s.raise c).report.attn
      wanted := (s.raise c).report.wanted } } := by
  by_cases h : s.report.enables &&& c.mask = 0
  · rw [State.raise_disabled s c h]
  · rw [State.raise_enabled s c h]

/-- The mask of a cause holds its own bit and no other (section 11.1). -/
theorem Cause.mask_bit (c k : Cause) : c.mask.getLsbD k.bit = decide (k = c) := by
  cases c <;> cases k <;> decide

/-- The enable of a cause, read from the mask that a raise tests. -/
theorem Cause.mask_and_eq_zero (x : BitVec 9) (c : Cause) : x &&& c.mask = 0 ↔ x.getLsbD c.bit = false := by
  revert x
  cases c <;> decide

/-- R98: a change of the window state changes the window state, its marks and ASSURED, and nothing else. -/
theorem State.setWindowState_frame (w : WindowState) :
    s.setWindowState w = { s with
      window := { s.window with state := w }
      report := (s.setWindowState w).report } := by
  unfold State.setWindowState
  split
  · rename_i h
    rw [← h]
  · rfl

@[simp] theorem State.setWindowState_state (w : WindowState) : (s.setWindowState w).window.state = w := by
  rw [State.setWindowState_frame]

/-- R98: a window state that changes makes a WINDOW report owed. -/
theorem State.setWindowState_owes (w : WindowState) (h : s.window.state ≠ w) :
    (s.setWindowState w).report = { s.report with
      windowOwed := true, wanted := true
      assured := ({ s with window := { s.window with state := w } }).assuredCondition } := by
  unfold State.setWindowState
  rw [if_neg h]
  rfl

/-- R104: a join or departure changes the work set and the WINDOW mark, and nothing else. -/
theorem State.setWorkMember_frame (c : Nat) (b : Bool) :
    s.setWorkMember c b = { s with
      window := { s.window with workSet := (s.setWorkMember c b).window.workSet }
      report := { s.report with windowOwed := (s.setWorkMember c b).report.windowOwed } } := by
  unfold State.setWorkMember
  split <;> rfl

/-- R104: who is in the work set after one circuit has joined or left. -/
theorem State.setWorkMember_member (c : Nat) (b : Bool) (k : Nat) :
    Table.get false (s.setWorkMember c b).window.workSet k
      = if k = c then b else Table.get false s.window.workSet k := by
  unfold State.setWorkMember
  split
  · rename_i h
    by_cases hk : k = c
    · simp [hk, h]
    · simp [hk]
  · simp [State.oweWindow]

/-! ### Circuit states (R14, R16) -/

/-- A fenced flag rewritten: the owner stays, and the flag follows the fence rule. -/
theorem State.refence_mapEntry (i k : Nat) :
    (s.refence i).mapEntry k
      = if k = i then { s.mapEntry i with fenced := s.fenceRule (s.mapEntry i).owner } else s.mapEntry k := by
  simp [State.refence]

/-- Rewriting fenced flags one after another: each listed index follows the fence rule, the rest stay. -/
theorem State.refenceAll_mapEntry (l : List Nat) (k : Nat) :
    (s.forEach l State.refence).mapEntry k
      = if k ∈ l then { s.mapEntry k with fenced := s.fenceRule (s.mapEntry k).owner } else s.mapEntry k := by
  induction l generalizing s with
  | nil => rfl
  | cons i rest ih =>
    show ((s.refence i).forEach rest State.refence).mapEntry k = _
    rw [ih]
    have hr : ∀ o, (s.refence i).fenceRule o = s.fenceRule o := fun o => rfl
    simp only [State.refence_mapEntry, hr, List.mem_cons]
    by_cases hki : k = i
    · subst hki
      by_cases hk : k ∈ rest <;> simp [hk]
    · by_cases hk : k ∈ rest <;> simp [hki, hk]

/-- Rewriting fenced flags changes nothing but the entry map. -/
theorem State.refenceAll_frame (l : List Nat) :
    s.forEach l State.refence
      = { s with store := { s.store with entryMap := (s.forEach l State.refence).store.entryMap } } := by
  induction l generalizing s with
  | nil => rfl
  | cons i rest ih =>
    show (s.refence i).forEach rest State.refence = _
    rw [ih]
    rfl

/-- Rewriting fenced flags gives some entry map, all else as it was. -/
theorem State.refenceAll_some (l : List Nat) :
    ∃ m, s.forEach l State.refence = { s with store := { s.store with entryMap := m } } :=
  ⟨_, State.refenceAll_frame s l⟩

/-- R171: ASSURED takes some level, all else as it was. -/
theorem State.updateAssured_some :
    ∃ b, s.updateAssured = { s with report := { s.report with assured := b } } := ⟨_, rfl⟩

/-- R16: the counts move, and the summary becomes wanted. -/
theorem State.moveCount_some (a b : CircuitState) :
    ∃ ct, s.moveCount a b = { s with
        store := { s.store with counts := ct }, report := { s.report with wanted := true } }
      ∧ ∀ x : CircuitState, Table.get 0 ct x.code =
          if x = b then (if b = a then s.count a - 1 else s.count b) + 1
          else if x = a then s.count a - 1 else s.count x := by
  refine ⟨_, rfl, fun x => ?_⟩
  show (s.moveCount a b).count x = _
  simp only [State.moveCount, State.putCount_count]

/-- R16: a circuit put in the state it has is left as it was. -/
theorem State.setCircuitState_same (c : Nat) (st : CircuitState) (h : (s.circuit c).state = st) :
    s.setCircuitState c st = s := if_pos h

/-- R16: a circuit put in another state: its record, the fenced flags of its entries, its report owed, the counts and
ASSURED, and nothing else. -/
theorem State.setCircuitState_change (c : Nat) (st : CircuitState) (h : (s.circuit c).state ≠ st) :
    ∃ m ct b, s.setCircuitState c st = { s with
        store := { s.store with
          circuits := Table.set {} s.store.circuits c { s.circuit c with state := st }, entryMap := m, counts := ct }
        report := { s.report with
          owed := Table.set false s.report.owed c true, wanted := true, assured := b } }
      ∧ (∀ k, Table.get {} m k = if k ∈ (s.circuit c).entries then
            { s.mapEntry k with
              fenced := (s.putCircuit c { s.circuit c with state := st }).fenceRule (s.mapEntry k).owner }
          else s.mapEntry k)
      ∧ ∀ x : CircuitState, Table.get 0 ct x.code =
          if x = st then s.count st + 1
          else if x = (s.circuit c).state then s.count x - 1 else s.count x := by
  have hs : s.setCircuitState c st =
      (((((s.putCircuit c { s.circuit c with state := st }).forEach (s.circuit c).entries
        State.refence).oweCircuit c).moveCount (s.circuit c).state st).updateAssured) := if_neg h
  have hm' := fun k => State.refenceAll_mapEntry (s.putCircuit c { s.circuit c with state := st })
    (s.circuit c).entries k
  obtain ⟨m, hm⟩ := State.refenceAll_some (s.putCircuit c { s.circuit c with state := st }) (s.circuit c).entries
  rw [hm] at hs hm'
  obtain ⟨ct, hct, hget⟩ := State.moveCount_some (State.oweCircuit { s.putCircuit c { s.circuit c with state := st }
    with store := { (s.putCircuit c { s.circuit c with state := st }).store with entryMap := m } } c)
    (s.circuit c).state st
  rw [hct] at hs
  obtain ⟨b, hb⟩ := State.updateAssured_some { State.oweCircuit { s.putCircuit c { s.circuit c with state := st }
    with store := { (s.putCircuit c { s.circuit c with state := st }).store with entryMap := m } } c with
      store := { (State.oweCircuit { s.putCircuit c { s.circuit c with state := st }
        with store := { (s.putCircuit c { s.circuit c with state := st }).store with
          entryMap := m } } c).store with counts := ct }
      report := { (State.oweCircuit { s.putCircuit c { s.circuit c with state := st }
        with store := { (s.putCircuit c { s.circuit c with state := st }).store with
          entryMap := m } } c).report with wanted := true } }
  rw [hb] at hs
  refine ⟨m, ct, b, hs, hm', fun x => ?_⟩
  rw [hget]
  have hne : st ≠ (s.circuit c).state := fun e => h e.symm
  by_cases hx : x = st
  · simp only [hx, if_true, hne, if_false]
    rfl
  · by_cases hy : x = (s.circuit c).state
    · simp only [hy, if_true, h, if_false]
      rfl
    · simp only [hx, hy, if_false]
      rfl

/-- R16: a change of a circuit's state changes the Circuit Store and the marks of the Report Unit. -/
theorem State.setCircuitState_frame (c : Nat) (st : CircuitState) :
    ∃ m ct owed wanted b, s.setCircuitState c st = { s with
      store := { s.store with
        circuits := (s.setCircuitState c st).store.circuits, entryMap := m, counts := ct }
      report := { s.report with owed, wanted, assured := b } } := by
  by_cases h : (s.circuit c).state = st
  · rw [State.setCircuitState_same s c st h]
    exact ⟨_, _, _, _, _, rfl⟩
  · obtain ⟨m, ct, b, hs, -, -⟩ := State.setCircuitState_change s c st h
    rw [hs]
    exact ⟨_, _, _, _, _, rfl⟩

/-- R16: only circuit `c`'s record changes, and in it only the state. -/
@[simp] theorem State.setCircuitState_circuit (c : Nat) (st : CircuitState) (k : Nat) :
    (s.setCircuitState c st).circuit k = if k = c then { s.circuit c with state := st } else s.circuit k := by
  by_cases h : (s.circuit c).state = st
  · rw [State.setCircuitState_same s c st h]
    by_cases hk : k = c
    · simp [hk, ← h]
    · simp [hk]
  · obtain ⟨m, ct, b, hs, -, -⟩ := State.setCircuitState_change s c st h
    rw [hs]
    exact State.putCircuit_circuit s c _ k

/-- R14: the fenced flags of the circuit's entries follow the fence rule; every owner and every other entry
stays. -/
theorem State.setCircuitState_mapEntry (c : Nat) (st : CircuitState) (k : Nat) :
    (s.setCircuitState c st).mapEntry k =
      if (s.circuit c).state ≠ st ∧ k ∈ (s.circuit c).entries then
        { s.mapEntry k with
          fenced := (s.putCircuit c { s.circuit c with state := st }).fenceRule (s.mapEntry k).owner }
      else s.mapEntry k := by
  by_cases h : (s.circuit c).state = st
  · simp [h, State.setCircuitState_same s c st h]
  · obtain ⟨m, ct, b, hs, hm, -⟩ := State.setCircuitState_change s c st h
    rw [hs]
    refine (hm k).trans ?_
    simp [h]

/-- No change of a circuit's state changes an owner. -/
@[simp] theorem State.setCircuitState_owner (c : Nat) (st : CircuitState) (k : Nat) :
    ((s.setCircuitState c st).mapEntry k).owner = (s.mapEntry k).owner := by
  rw [State.setCircuitState_mapEntry]
  split <;> rfl

/-- R16: the circuit moves from the old state's count to the new one's. -/
theorem State.setCircuitState_count (c : Nat) (st : CircuitState) (x : CircuitState)
    (h : (s.circuit c).state ≠ st) :
    (s.setCircuitState c st).count x =
      if x = st then s.count st + 1
      else if x = (s.circuit c).state then s.count x - 1 else s.count x := by
  obtain ⟨m, ct, b, hs, -, hct⟩ := State.setCircuitState_change s c st h
  rw [hs]
  exact hct x

/-- R16: a CIRCUIT report is owed for a circuit whose state has changed. -/
theorem State.setCircuitState_owes (c : Nat) (st : CircuitState) (h : (s.circuit c).state ≠ st) :
    Table.get false (s.setCircuitState c st).report.owed c = true := by
  obtain ⟨m, ct, b, hs, -, -⟩ := State.setCircuitState_change s c st h
  rw [hs]
  simp

@[simp] theorem State.setCircuitState_boundTo (c : Nat) (st : CircuitState) (ch : Nat) :
    (s.setCircuitState c st).boundTo ch = s.boundTo ch := by
  obtain ⟨m, ct, owed, wanted, b, hs⟩ := State.setCircuitState_frame s c st
  rw [hs]
  rfl

@[simp] theorem State.setCircuitState_evidenceOf (c : Nat) (st : CircuitState) (ch : Nat) :
    (s.setCircuitState c st).evidenceOf ch = s.evidenceOf ch := by
  obtain ⟨m, ct, owed, wanted, b, hs⟩ := State.setCircuitState_frame s c st
  rw [hs]
  rfl

/-! ### Entries and channels (R10, R11) -/

/-- Freeing indices one after another. -/
theorem State.unclaimAll_mapEntry (l : List Nat) (k : Nat) :
    (s.forEach l State.unclaim).mapEntry k = if k ∈ l then {} else s.mapEntry k := by
  induction l generalizing s with
  | nil => rfl
  | cons i rest ih =>
    show ((s.unclaim i).forEach rest State.unclaim).mapEntry k = _
    rw [ih]
    simp only [State.unclaim, State.putEntry_mapEntry, List.mem_cons]
    by_cases hki : k = i
    · subst hki
      simp
    · by_cases hk : k ∈ rest <;> simp [hki, hk]

/-- Freeing indices changes nothing but the entry map. -/
theorem State.unclaimAll_frame (l : List Nat) :
    s.forEach l State.unclaim
      = { s with store := { s.store with entryMap := (s.forEach l State.unclaim).store.entryMap } } := by
  induction l generalizing s with
  | nil => rfl
  | cons i rest ih =>
    show (s.unclaim i).forEach rest State.unclaim = _
    rw [ih]
    rfl

/-- Claiming indices for a circuit one after another. -/
theorem State.claimAll_mapEntry (c : Nat) (l : List Nat) (k : Nat) :
    (s.forEach l (State.claim c)).mapEntry k
      = if k ∈ l then { owner := some c, fenced := s.fenceRule (some c) } else s.mapEntry k := by
  induction l generalizing s with
  | nil => rfl
  | cons i rest ih =>
    show ((State.claim c s i).forEach rest (State.claim c)).mapEntry k = _
    rw [ih]
    have hr : (State.claim c s i).fenceRule (some c) = s.fenceRule (some c) := rfl
    rw [hr]
    simp only [State.claim, State.putEntry_mapEntry, List.mem_cons]
    by_cases hki : k = i
    · subst hki
      by_cases hk : k ∈ rest <;> simp [hk]
    · by_cases hk : k ∈ rest <;> simp [hki, hk]

/-- Claiming indices changes nothing but the entry map. -/
theorem State.claimAll_frame (c : Nat) (l : List Nat) :
    s.forEach l (State.claim c)
      = { s with store := { s.store with entryMap := (s.forEach l (State.claim c)).store.entryMap } } := by
  induction l generalizing s with
  | nil => rfl
  | cons i rest ih =>
    show (State.claim c s i).forEach rest (State.claim c) = _
    rw [ih]
    rfl

/-- R20, R23: a new entry list changes the circuit's list and the entry map, and nothing else. -/
theorem State.retarget_frame (c : Nat) (new : List Nat) :
    s.retarget c new = { s with
      store := { s.store with
        circuits := Table.set {} s.store.circuits c { s.circuit c with entries := new }
        entryMap := (s.retarget c new).store.entryMap } } := by
  unfold State.retarget
  simp only
  rw [State.claimAll_frame, State.unclaimAll_frame]
  rfl

@[simp] theorem State.retarget_circuit (c : Nat) (new : List Nat) (k : Nat) :
    (s.retarget c new).circuit k = if k = c then { s.circuit c with entries := new } else s.circuit k := by
  rw [State.retarget_frame]
  simp [State.circuit]

/-- R20, R22, R23: indices no longer listed are free, newly listed ones are the circuit's under the fence rule, and
the rest stay. -/
theorem State.retarget_mapEntry (c : Nat) (new : List Nat) (k : Nat) :
    (s.retarget c new).mapEntry k =
      if k ∈ new ∧ k ∉ (s.circuit c).entries then { owner := some c, fenced := s.fenceRule (some c) }
      else if k ∈ (s.circuit c).entries ∧ k ∉ new then {} else s.mapEntry k := by
  unfold State.retarget
  simp only [State.mapCircuit, State.putCircuit_mapEntry]
  rw [State.claimAll_mapEntry, State.unclaimAll_mapEntry]
  have hr : (s.forEach ((s.circuit c).entries.filter fun i => !new.contains i) State.unclaim).fenceRule (some c)
      = s.fenceRule (some c) := by
    rw [State.unclaimAll_frame]
    rfl
  rw [hr]
  simp [and_comm]

/-- R11: binding changes the circuit's channel, the channel map and the evidence, and nothing else. -/
theorem State.bind_frame (c ch : Nat) :
    s.bind c ch = { s with
      store := { s.store with
        circuits := (s.bind c ch).store.circuits, channelMap := (s.bind c ch).store.channelMap }
      trace := { s.trace with evidence := (s.bind c ch).trace.evidence } } := by
  unfold State.bind
  simp only
  split
  · rfl
  · cases (s.circuit c).channel <;> rfl

/-- R11: the circuit has the channel. -/
@[simp] theorem State.bind_circuit (c ch k : Nat) :
    (s.bind c ch).circuit k = if k = c then { s.circuit c with channel := some ch } else s.circuit k := by
  unfold State.bind
  simp only
  split
  · rename_i h
    by_cases hk : k = c
    · subst hk
      simp [← h]
    · simp [hk]
  · cases hch : (s.circuit c).channel with
    | none => simp [State.forSome, State.mapCircuit]
    | some o => simp [State.forSome, State.mapCircuit, State.unbind, State.setSilence, State.mapEvidence]

/-- R11: a channel newly bound names the circuit, the one it leaves names none, and the rest stay. -/
theorem State.bind_boundTo (c ch k : Nat) (h : (s.circuit c).channel ≠ some ch) :
    (s.bind c ch).boundTo k =
      if k = ch then some c else if (s.circuit c).channel = some k then none else s.boundTo k := by
  unfold State.bind
  simp only [if_neg h]
  cases hch : (s.circuit c).channel with
  | none => simp [State.forSome, State.mapCircuit]
  | some o =>
    simp only [State.forSome, Option.elim_some, State.mapCircuit, State.resetEvidence_boundTo,
      State.putCircuit_boundTo, State.putBinding_boundTo, Option.some.injEq]
    by_cases hk : k = ch
    · simp [hk]
    · by_cases ho : o = k
      · subst ho
        simp [hk, State.unbind, State.setSilence, State.mapEvidence]
      · simp [hk, ho, State.unbind, State.setSilence, State.mapEvidence, Ne.symm ho]

/-- Leaving the restore list changes the list and the summary mark, and nothing else. -/
theorem State.unlistRestore_frame (c : Nat) :
    s.unlistRestore c = { s with
      sweep := { s.sweep with restoreList := s.sweep.restoreList.filter (· != c) }
      report := { s.report with wanted := (s.unlistRestore c).report.wanted } } := by
  unfold State.unlistRestore
  split
  · rfl
  · rename_i h
    have hf : s.sweep.restoreList.filter (· != c) = s.sweep.restoreList := by
      refine List.filter_eq_self.mpr fun a ha => ?_
      have hne : a ≠ c := by
        rintro rfl
        exact h (by simpa using ha)
      simpa using hne
    rw [hf]

/-! ### Release (R17) -/

/-- R17: a release changes only these tables and marks. -/
theorem State.release_some (c : Nat) :
    ∃ t, s.release c = State.setCircuitState t c .empty
      ∧ (∀ k, t.circuit k = if k = c then { state := (s.circuit c).state, fenceHits := (s.circuit c).fenceHits }
          else s.circuit k)
      ∧ (∀ k, t.mapEntry k = if k ∈ (s.circuit c).entries then {} else s.mapEntry k)
      ∧ (∀ ch, t.boundTo ch = if (s.circuit c).channel = some ch then none else s.boundTo ch)
      ∧ t.store.mode = s.store.mode ∧ t.sweep.restoreList = s.sweep.restoreList.filter (· != c)
      ∧ (∀ k, Table.get false t.window.workSet k = if k = c then false else Table.get false s.window.workSet k) := by
  obtain ⟨m, hm, hread⟩ : ∃ m, s.forEach (s.circuit c).entries State.unclaim
      = { s with store := { s.store with entryMap := m } }
      ∧ ∀ k, Table.get {} m k = if k ∈ (s.circuit c).entries then {} else s.mapEntry k := by
    refine ⟨_, State.unclaimAll_frame s _, fun k => ?_⟩
    exact State.unclaimAll_mapEntry s _ k
  refine ⟨_, rfl, fun k => ?_, fun k => ?_, fun ch => ?_, ?_, ?_, fun k => ?_⟩
  all_goals rw [hm]
  · rw [State.putCircuit_circuit, State.setWorkMember_frame, State.unlistRestore_frame]
    cases (s.circuit c).channel <;> rfl
  · rw [State.putCircuit_mapEntry, State.setWorkMember_frame, State.unlistRestore_frame]
    cases (s.circuit c).channel <;> exact hread k
  · rw [State.putCircuit_boundTo, State.setWorkMember_frame, State.unlistRestore_frame]
    cases hch : (s.circuit c).channel with
    | none => simp [State.forSome, State.boundTo]
    | some o =>
      show (({ s with store := { s.store with entryMap := m } } : State).putBinding o none).boundTo ch = _
      rw [State.putBinding_boundTo]
      by_cases ho : ch = o
      · simp [ho]
      · simp [ho, Ne.symm ho, State.boundTo]
  · rw [State.putCircuit_store, State.setWorkMember_frame, State.unlistRestore_frame]
    cases (s.circuit c).channel <;> rfl
  · rw [State.putCircuit_sweep, State.setWorkMember_frame, State.unlistRestore_frame]
    cases (s.circuit c).channel <;> rfl
  · rw [State.putCircuit_window, State.setWorkMember_member, State.unlistRestore_frame]
    cases (s.circuit c).channel <;> rfl

/-- R17: the record of a released circuit returns to its reset values, fence hits apart, and no other changes. -/
theorem State.release_circuit (c k : Nat) :
    (s.release c).circuit k = if k = c then { fenceHits := (s.circuit c).fenceHits } else s.circuit k := by
  obtain ⟨t, ht, hc, -⟩ := State.release_some s c
  rw [ht, State.setCircuitState_circuit, hc c, hc k]
  by_cases hk : k = c <;> simp [hk]

/-- R17: the entries of a released circuit are free, and every other entry stays. -/
theorem State.release_mapEntry (c k : Nat) :
    (s.release c).mapEntry k = if k ∈ (s.circuit c).entries then {} else s.mapEntry k := by
  obtain ⟨t, ht, hc, hm, -⟩ := State.release_some s c
  have hnil : (t.circuit c).entries = [] := by rw [hc c, if_pos rfl]
  rw [ht, State.setCircuitState_mapEntry, hnil, hm k]
  simp

/-- R17: the channel of a released circuit is unbound, and every other channel stays. -/
theorem State.release_boundTo (c ch : Nat) :
    (s.release c).boundTo ch = if (s.circuit c).channel = some ch then none else s.boundTo ch := by
  obtain ⟨t, ht, -, -, hb, -⟩ := State.release_some s c
  rw [ht, State.setCircuitState_boundTo, hb ch]

/-! ### The mode (R15) -/

/-- R15: another mode changes the mode and the fenced flags, and makes the summary wanted. -/
theorem State.setMode_change (m : Mode) (h : s.store.mode ≠ m) :
    ∃ map, s.setMode m = { s with
        store := { s.store with mode := m, entryMap := map }, report := { s.report with wanted := true } }
      ∧ ∀ k, Table.get {} map k = if k ∈ s.store.entryMap.map Prod.fst then
            { s.mapEntry k with
              fenced := (s.mapEntry k).owner.elim false fun c => fences m (s.circuit c).state }
          else s.mapEntry k := by
  have hs : s.setMode m = (State.forEach { s with store := { s.store with mode := m } }
      (s.store.entryMap.map Prod.fst) State.refence).wantSummary := if_neg h
  have hread := fun k => State.refenceAll_mapEntry { s with store := { s.store with mode := m } }
    (s.store.entryMap.map Prod.fst) k
  obtain ⟨map, hmap⟩ := State.refenceAll_some { s with store := { s.store with mode := m } }
    (s.store.entryMap.map Prod.fst)
  rw [hmap] at hs hread
  exact ⟨map, hs, hread⟩

/-- R15: the mode already in force leaves every flag as it was. -/
theorem State.setMode_same (m : Mode) (h : s.store.mode = m) : s.setMode m = s := if_pos h

/-! ### The Sweep Engine's requests (R120) -/

/-- R120: an access that is ready changes the held access and the waiting request, and nothing else. -/
theorem State.requestOrHold_frame (addr : Nat) (data : Option Word) :
    s.requestOrHold addr data = { s with
      sweep := { s.sweep with held := (s.requestOrHold addr data).sweep.held }
      arbiter := { s.arbiter with sweep := (s.requestOrHold addr data).arbiter.sweep } } := by
  unfold State.requestOrHold
  split <;> rfl

/-- R120: with no write to its word outstanding and no access of its own, the engine requests at once. -/
theorem State.requestOrHold_clear (addr : Nat) (data : Option Word) (hb : s.bufferHolds addr = false)
    (ho : s.sweepOutstanding = false) :
    s.requestOrHold addr data = { s with
      sweep := { s.sweep with held := none }
      arbiter := { s.arbiter with sweep := some { addr, write := data.map (·, 0xF) } } } := by
  simp [State.requestOrHold, hb, ho]

/-- R120: otherwise it holds the request, with the access as it is now. -/
theorem State.requestOrHold_held (addr : Nat) (data : Option Word)
    (hb : s.bufferHolds addr = true ∨ s.sweepOutstanding = true) :
    s.requestOrHold addr data = { s with sweep := { s.sweep with held := some (addr, data) } } := by
  have hor : (s.bufferHolds addr || s.sweepOutstanding) = true := by simpa using hb
  simp [State.requestOrHold, hor]

/-- R120: the access at the current job's position is requested or held as it stands. -/
theorem State.requestSweep_ready (addr : Nat) (data : Option Word) (h : s.sweepAccess = some (addr, data)) :
    s.requestSweep = s.requestOrHold addr data := by
  simp [State.requestSweep, h]

/-- R120: a request of the Sweep Engine changes the held access and the waiting request, and nothing else. -/
theorem State.requestSweep_frame :
    s.requestSweep = { s with
      sweep := { s.sweep with held := s.requestSweep.sweep.held }
      arbiter := { s.arbiter with sweep := s.requestSweep.arbiter.sweep } } := by
  unfold State.requestSweep
  split
  · rfl
  · exact State.requestOrHold_frame s _ _

/-- R120: a held access is requested or held again as it became ready. -/
theorem State.releaseHeldSweep_some (addr : Nat) (data : Option Word) (h : s.sweep.held = some (addr, data)) :
    s.releaseHeldSweep = s.requestOrHold addr data := by
  simp [State.releaseHeldSweep, h]

/-- R120: with no request held nothing is released. -/
theorem State.releaseHeldSweep_none (h : s.sweep.held = none) : s.releaseHeldSweep = s := by
  simp [State.releaseHeldSweep, h]

/-- R120: releasing a held request changes the held access and the waiting request, and nothing else. -/
theorem State.releaseHeldSweep_frame :
    s.releaseHeldSweep = { s with
      sweep := { s.sweep with held := s.releaseHeldSweep.sweep.held }
      arbiter := { s.arbiter with sweep := s.releaseHeldSweep.arbiter.sweep } } := by
  unfold State.releaseHeldSweep
  split
  · rfl
  · exact State.requestOrHold_frame s _ _

/-- R119, R120: a job taken up changes the job, the held access and the waiting request, and nothing else. -/
theorem State.runJob_frame (j : Job) :
    s.runJob j = { s with
      sweep := { s.sweep with job := j, held := (s.runJob j).sweep.held }
      arbiter := { s.arbiter with sweep := (s.runJob j).arbiter.sweep } } := by
  unfold State.runJob
  rw [State.requestSweep_frame]

/-! ### The Directive Unit (R152, R157) -/

/-- R152: seeking the next slot changes the ready set, the step and the waiting request, and nothing else. -/
theorem State.seekSlot_frame :
    s.seekSlot = { s with
      directive := { s.directive with
        ready := s.seekSlot.directive.ready, step := s.seekSlot.directive.step }
      arbiter := { s.arbiter with directive := s.seekSlot.arbiter.directive } } := by
  unfold State.seekSlot
  simp only
  split <;> rfl

/-- R157: entering COMPLETING changes the step and the waiting request, and nothing else. -/
theorem State.startCompleting_frame (left : List (Nat × Word)) (advance : Nat) :
    s.startCompleting left advance = { s with
      directive := { s.directive with step := (s.startCompleting left advance).directive.step }
      arbiter := { s.arbiter with directive := (s.startCompleting left advance).arbiter.directive } } := by
  cases left <;> rfl

/-- R157: the completion writes are never empty. -/
theorem DirectiveUnit.completionWords_ne_nil (d : DirectiveUnit) (a : DirectiveAnswer) :
    d.completionWords a ≠ [] := by
  simp [DirectiveUnit.completionWords]

/-- R157: an outcome decided puts the unit in COMPLETING with one write for each slot of the chain. -/
theorem State.answerDirective_step (a : DirectiveAnswer) :
    (s.answerDirective a).directive
      = { s.directive with step := .completing (s.directive.completionWords a) s.directive.chain.length } := by
  have hd : (if a.outcome.isRefusal then s.raise .refused else s).directive = s.directive := by
    split
    · rw [State.raise_frame]
    · rfl
  simp only [State.answerDirective, hd]
  cases hw : s.directive.completionWords a with
  | nil => exact absurd hw (DirectiveUnit.completionWords_ne_nil _ _)
  | cons head rest =>
    obtain ⟨slot, w⟩ := head
    simp [State.startCompleting, hd]

/-- R157: an outcome decided changes the Directive Unit, its request and, for a refusal, the attention marks. -/
theorem State.answerDirective_frame (a : DirectiveAnswer) :
    s.answerDirective a = { s with
      directive := (s.answerDirective a).directive
      arbiter := { s.arbiter with directive := (s.answerDirective a).arbiter.directive }
      report := (if a.outcome.isRefusal then s.raise .refused else s).report } := by
  unfold State.answerDirective
  simp only
  rw [State.startCompleting_frame]
  split
  · rw [State.raise_frame]
  · rfl

/-! ### The journal's demand (R55, R56) -/

/-- R56: clearing the journal OVERRUN flag changes the flag and the summary mark, and nothing else. -/
theorem State.clearOverrun_frame :
    s.clearOverrun = { s with
      journal := { s.journal with overrun := none }
      report := { s.report with wanted := s.report.wanted || s.journal.overrun.isSome } } := by
  unfold State.clearOverrun State.wantSummaryIf
  cases h : s.journal.overrun <;> simp [State.wantSummary]

/-- R55: marking an owed drift sweep changes only the drift sweep request. -/
theorem State.markDriftDue_frame :
    s.markDriftDue = { s with
      sweep := { s.sweep with driftRequest := s.sweep.driftRequest || s.driftDue } } := by
  unfold State.markDriftDue
  cases h : s.driftDue <;> simp

/-! ### Verdicts (R138 to R141) -/

/-- R82: outside VERIFYING, or for a circuit outside the window, a hand-over changes nothing. -/
theorem State.evaluateHandedOver_idle (c ch : Nat)
    (h : (s.circuit c).state.inWindow = false ∨ s.window.state ≠ .verifying) : s.evaluateHandedOver c ch = s := by
  unfold State.evaluateHandedOver
  rcases h with h | h <;> simp [h]

/-- R139: a verdict that is the one held changes nothing. -/
theorem State.evaluate_same (c ch : Nat)
    (h : newVerdict (s.circuit c) (s.evidenceOf ch) = ((s.circuit c).state, (s.circuit c).cause)) :
    s.evaluate c ch = s := by
  simp [State.evaluate, h]

/-- R139: a verdict taken changes the circuit's state, cause and verdict changes, and no other circuit. -/
@[simp] theorem State.changeVerdict_circuit (c : Nat) (st : CircuitState) (cause : Option VerdictCause) (k : Nat) :
    (s.changeVerdict c st cause).circuit k =
      if k = c then { s.circuit c with state := st, cause, verdictChanges := bump (s.circuit c).verdictChanges }
      else s.circuit k := by
  unfold State.changeVerdict
  by_cases hk : k = c
  · subst hk
    simp
  · simp [hk]

/-! ### Silence timers and conclusion (R79, R143) -/

/-- Setting one level on the silence timers of a list of channels. -/
theorem State.silenceAll_evidenceOf (l : List Nat) (t : Timer) (k : Nat) :
    (s.forEach l fun s ch => s.setSilence ch t).evidenceOf k
      = if k ∈ l then { s.evidenceOf k with silence := t } else s.evidenceOf k := by
  induction l generalizing s with
  | nil => rfl
  | cons i rest ih =>
    show ((s.setSilence i t).forEach rest fun s ch => s.setSilence ch t).evidenceOf k = _
    rw [ih]
    simp only [State.setSilence_evidenceOf, List.mem_cons]
    by_cases hki : k = i
    · subst hki
      by_cases hk : k ∈ rest <;> simp [hk]
    · by_cases hk : k ∈ rest <;> simp [hki, hk]

/-- Setting silence timers changes nothing but the evidence. -/
theorem State.silenceAll_some (l : List Nat) (t : Timer) :
    ∃ ev, (s.forEach l fun s ch => s.setSilence ch t) = { s with trace := { s.trace with evidence := ev } } := by
  induction l generalizing s with
  | nil => exact ⟨_, rfl⟩
  | cons i rest ih =>
    obtain ⟨ev, hev⟩ := ih (s.setSilence i t)
    exact ⟨ev, hev⟩

/-- R79: every silence timer is STOPPED, and no other evidence changes. -/
theorem State.stopSilence_evidenceOf (k : Nat) :
    s.stopSilence.evidenceOf k = { s.evidenceOf k with silence := .stopped } := by
  unfold State.stopSilence
  rw [State.silenceAll_evidenceOf]
  split
  · rfl
  · rename_i h
    have hk : s.evidenceOf k = {} := Table.get_unlisted ({} : Evidence) h
    rw [hk]

/-- R79: stopping the silence timers changes nothing but the evidence. -/
theorem State.stopSilence_some :
    ∃ ev, s.stopSilence = { s with trace := { s.trace with evidence := ev } } :=
  State.silenceAll_some s _ _

/-! ### The end of an event (R168) -/

/-- R168: with no rewrite due the end of an event changes nothing. -/
theorem State.endEvent_idle (h : s.summaryDue = false) : s.endEvent = s := by simp [State.endEvent, h]

/-- R168: a due rewrite starts at the end of the event. -/
theorem State.endEvent_due (h : s.summaryDue = true) : s.endEvent = s.startSummary := if_pos h

/-- R168: after an event no rewrite is due. -/
theorem State.endEvent_notDue : s.endEvent.summaryDue = false := by
  unfold State.endEvent
  split
  · simp [State.startSummary, State.requestReport, State.summaryDue]
  · next h => simpa using h

/-- R168: the end of an event changes the generation, summary wanted, the raised-since-snapshot marks, the summary
writer and the Report Unit's request, and nothing else. -/
theorem State.endEvent_frame :
    s.endEvent = { s with
      arbiter := { s.arbiter with report := s.endEvent.arbiter.report }
      report := { s.report with
        generation := s.endEvent.report.generation, wanted := s.endEvent.report.wanted
        raised := s.endEvent.report.raised, summary := s.endEvent.report.summary } } := by
  unfold State.endEvent
  split <;> rfl

/-! ### Power (R88) -/

/-- R88, R89: the smoothed power lies between the old one and the reading. -/
theorem smooth_between (k : Nat) (old r : Int) :
    min old r ≤ smooth k (some old) r ∧ smooth k (some old) r ≤ max old r := by
  have hp : (0 : Int) < 2 ^ k := by positivity
  have hp1 : (1 : Int) ≤ 2 ^ k := hp
  simp only [smooth]
  rcases le_total old r with h | h
  · have h0 : 0 ≤ (r - old) / 2 ^ k := Int.ediv_nonneg (by omega) hp.le
    have h1 : (r - old) / 2 ^ k ≤ r - old := Int.ediv_le_self _ (by omega)
    omega
  · have h0 : (r - old) / 2 ^ k ≤ 0 := Int.ediv_nonpos_of_nonpos_of_neg (by omega) hp
    have h1 : r - old ≤ (r - old) / 2 ^ k := by
      rw [Int.le_ediv_iff_mul_le hp]
      nlinarith
    omega

end Sys2Proof.Machine
end

