-- ==== Sys2Proof/Tests/Slice0.lean ====
section
/-!
SUPPORT. Tests of single steps, with results worked by hand from the manual, and for each statement with hypotheses a
concrete state and operands that meet them together.
-/

namespace Sys2Proof.Tests

open Sys2Proof Sys2Proof.Machine

-- The kernel decides these theorems one after another, so elaborating them side by side gains nothing.
set_option Elab.async false

/-! ### Small states -/

/-- A layout: 16 connection words at 0400 0000h, 6 channels at 0500 0000h, 64 report records at 0580 0000h, the summary
at 0600 0000h, framer master 3. -/
def lay : Layout :=
  { connBase := 0x04000000, connCount := 16, landBase := 0x05000000, channelCount := 6, reportBase := 0x05800000,
    reportSize := 64, summaryBase := 0x06000000, framers := 0x0008 }

/-- The part with that layout, its window in this state, and no circuit loaded. -/
def up (w : WindowState) : State := { layout := some lay, window := { state := w } }

/-- A path tag that is not all zero. -/
def tagA : Tag := Vector.replicate 12 0x41

/-- A SETTLED circuit with entries 5 and 6, channel 2 and baseline words 7 and 8. -/
def settledA : Circuit :=
  { state := .settled, channel := some 2, tag := tagA, tolerance := 200, floor := -3000, entries := [5, 6]
    baseline := some [7, 8] }

/-- The part with circuit 0 loaded with this record, channel 2 and the entries 5 and 6, in WATCH. -/
def one (w : WindowState) (r : Circuit) : State :=
  { up w with store := {
      circuits := [(0, r)]
      entryMap := [(5, { owner := some 0, fenced := fences .watch r.state }),
                   (6, { owner := some 0, fenced := fences .watch r.state })]
      channelMap := [(2, some 0)]
      counts := (([(0, 511), (r.state.code, 1)] : List (Nat × Nat))) } }

/-- A directive of one slot in hand, checked: the kind code and the words 1 to 7 of its slot. -/
def hand (s : State) (kind : Nat) (words : List Word) : State :=
  { s with directive := {
      step := .checked
      chain := [(BitVec.ofNat 32 (0x2000 + 256 * kind + 9) :: words ++ List.replicate 7 0).take 8] } }

/-- An access of this requester in progress. -/
def busy (s : State) (who : Requester) (r : Request) : State :=
  { s with arbiter := { s.arbiter with port := some { who, request := r } } }

/-- A posted write to word 5 of the connection table, from master 1. -/
def posted : Posted :=
  { addr := 0x04000014, data := 0xAABBCCDD, lanes := 0xF, master := 1, cls := .connection 5 }

/-- A posted write of a ready mark, bit 13, by its own lane to word 0 of slot 3. -/
def readyWrite : Posted := { addr := 0x60, data := 0x2000, lanes := 0x2, master := 0, cls := .directive 3 0 }

/-- A closing word presented for channel 2 by framer master 3, VALID with power 0. -/
def closingAccess : Access := { addr := 0x0500002C, op := .write 0x00010000 0xF, master := 3, cls := .landing 2 3 }

/-- A change record of index 5. -/
def record (phase : Phase) (fenced : Bool) : ChangeRecord :=
  { seq := 0, index := 5, value := 1, lanes := 0xF, master := 1, phase, fenced }

/-- The journal holds this one record, unclassified. -/
def waits (s : State) (r : ChangeRecord) : State := { s with journal := { waiting := [r], nextSeq := 1 } }

/-- An arrival on channel 2. -/
def arrival (power : Int) : Arrival := { channel := 2, tag := tagA, tagState := .valid, power }

/-- The arrival queue holds this one arrival. -/
def hears (s : State) (a : Arrival) : State := { s with trace := { s.trace with arrivals := [a] } }

/-- The outcome is a next state with this property. -/
def gives (o : Host.Outcome State Fault Refusal) (p : State → Bool) : Bool :=
  match o with
  | .next t => p t
  | .fault _ => false
  | .refused _ => false

/-! ### Well-formedness and decoding -/

theorem test_connectionWrite_needs_a_lane : (Instr.connectionWrite 0 0 0 0).wellFormed = false := by decide
theorem test_landingTagWrite_needs_a_lane : (Instr.landingTagWrite 0 0 0 0).wellFormed = false := by decide
theorem test_consumerWordWrite_needs_a_lane : (Instr.consumerWordWrite 0 0 0 0).wellFormed = false := by decide
theorem test_upstreamWrite_needs_a_lane : (Instr.upstreamWrite 0 0 0 0).wellFormed = false := by decide
theorem test_lateErrorAccess_needs_a_lane : (Instr.lateErrorAccess 0 (.write 0 0) 0).wellFormed = false := by decide
theorem test_one_lane_is_enough : (Instr.upstreamWrite 0 0 8 0).wellFormed = true := by decide

theorem test_no_word_spells_a_command : decodeTableWord 32 0x2001 = none := rfl

theorem test_empty_lane_set_refused : exec (.upstreamWrite 0 0 0 0) State.reset = .refused .emptyLaneSet := rfl

/-! ### One step of each command -/

/-- R175, R174: a reset keeps the straps sampled till its end. -/
theorem test_reset_keeps_straps :
    gives (exec .reset { up .opened with straps := { dring := 5, bord := true } }) (fun t =>
      t.inReset && decide (t.straps.dring = 5) && decide (t.window.state = .noLayout) && decide (t.layout = none)) = true := by
  decide +kernel

/-- R174: DRING = 3 puts the directive ring at 3 × 16 MiB. -/
theorem test_resetEnd_samples_straps :
    gives (exec (.resetEnd 3 true) { State.reset with inReset := true }) (fun t =>
      !t.inReset && decide (t.ringBase = 0x03000000) && t.straps.bord) = true := by
  decide +kernel

/-- R32, R47: a write of lanes 0 and 1 to word 5 of an unfenced table is recorded with the other lanes zero. -/
theorem test_connectionWrite_recorded :
    gives (exec (.connectionWrite 0x01000005 0xAABBCCDD 0x3 1) (one .opened settledA)) (fun t =>
      decide (t.journal.waiting = [⟨0, 5, 0x0000CCDD, 0x3, 1, .opened, false⟩]) && t.pass.buffer.isSome) = true := by
  decide +kernel

/-- R32: a write to an entry of a PENDING circuit is acknowledged and does not enter the buffer. -/
theorem test_connectionWrite_fenced :
    gives (exec (.connectionWrite 0x01000005 1 0xF 1) (one .settling { settledA with state := .pending })) (fun t =>
      decide (t.pass.buffer = none) && decide (t.pass.answer = some ⟨1, .acknowledge⟩)
        && decide (t.journal.waiting.map ChangeRecord.fenced = [true])) = true := by
  decide +kernel

/-- R34: with BORD high, lane 0 of slot word 1 carries tag octet 7. -/
theorem test_landingTagWrite_bord_high :
    gives (exec (.landingTagWrite 0x01400009 0x000000EE 0x1 3) { up .quiet with straps := { bord := true } }) (fun t =>
      decide ((Table.get zeroTag t.pass.assembly 2)[7] = 0xEE)
        && decide ((Table.get zeroTag t.pass.assembly 2)[4] = 0)) = true := by
  decide +kernel

/-- R35: tag state 1 is VALID, and a reading of FB50h is −1200. -/
theorem test_closingWord_pushes_arrival :
    gives (exec (.closingWord 0x0140000B 0x0001FB50 3) (up .quiet)) (fun t =>
      decide (t.trace.arrivals = [⟨2, zeroTag, .valid, -1200⟩])) = true := by
  decide +kernel

/-- R36: at the hold limit the arrival is lost and the gap flag set. -/
theorem test_holdLimitExpiry_sets_gap :
    gives (exec .holdLimitExpiry { up .quiet with pass := { step := .hold closingAccess 500 } }) (fun t =>
      (t.evidenceOf 2).gap && decide (t.trace.arrivals = []) && t.pass.buffer.isSome) = true := by
  decide +kernel

/-- R164: an index one ahead of the producer is rejected. -/
theorem test_consumerWordWrite_ahead_rejected :
    gives (exec (.consumerWordWrite 0x0180000D 11 0xF 0) { up .quiet with report := { producer := 10 } }) (fun t =>
      t.report.rejected && decide (t.report.consumer = 0)) = true := by
  decide +kernel

/-- R164: with 74 records written and a ring of 64, index 10 is the oldest taken, and none with a write in
progress. -/
theorem test_consumerWordWrite_full_ring :
    gives (exec (.consumerWordWrite 0x0180000D 10 0xF 0) { up .quiet with report := { producer := 74 } }) (fun t =>
      !t.report.rejected && decide (t.report.consumer = 10)) = true
    ∧ gives (exec (.consumerWordWrite 0x0180000D 10 0xF 0)
        { up .quiet with report := { producer := 74, writer := .writing .window 0 [(0, 0)] false } }) (fun t =>
      t.report.rejected) = true := by
  decide +kernel

/-- R29: a write outside every region is posted and recorded nowhere. -/
theorem test_upstreamWrite_other :
    gives (exec (.upstreamWrite 0x01C00000 1 0xF 0) (up .quiet)) (fun t =>
      t.pass.buffer.isSome && decide (t.journal.waiting = [])) = true := by
  decide +kernel

/-- R31: a read with the buffer empty goes out. -/
theorem test_upstreamRead_goes_out :
    gives (exec (.upstreamRead 0x01000005 4) (up .quiet)) (fun t =>
      decide (t.pass.step = .readOut ⟨0x04000014, .read, 4, .connection 5⟩)) = true := by
  decide +kernel

/-- R44: the late-error mark ends one access, and is then clear. -/
theorem test_lateErrorAccess_ends_once :
    gives (exec (.lateErrorAccess 0x01000005 .read 4) { up .quiet with pass := { lateMarks := [(4, true)] } })
      (fun t => decide (t.pass.step = .idle) && decide (t.pass.answer = some ⟨4, .error⟩) && !t.isLate 4) = true := by
  decide +kernel

/-- R41: at a starvation count of 8 the waiting internal requester is granted before the posted write. -/
theorem test_portGrant_starved :
    gives (exec .portGrant { up .quiet with
        pass := { buffer := some posted }, arbiter := { starvation := 8, report := some { addr := 16 } } }) (fun t =>
      decide (t.arbiter.starvation = 0) && decide (t.arbiter.port.map Grant.who = some .report)) = true := by
  decide +kernel

/-- R37: the ready mark is bit 13, in lane 1 of a slot's word 0. -/
theorem test_forwardedWriteComplete_marks_ready :
    gives (exec .forwardedWriteComplete (busy { up .quiet with pass := { buffer := some readyWrite } } .passPath
        { addr := 0x60 }))
      (fun t => decide (Table.marked t.directive.ready = [3]) && decide (t.pass.buffer = none)) = true := by
  decide +kernel

/-- R170: of the causes read, an unseen one stays pending. -/
theorem test_forwardedReadComplete_clears_seen :
    gives (exec (.forwardedReadComplete 0x3) (busy { up .quiet with
        pass := { step := .readOut ⟨0x06000008, .read, 0, .attentionWord⟩ }
        report := { pending := 0x7, unseen := 0x2 } } .passPath { addr := 0x06000008 }))
      (fun t => decide (t.report.pending = 0x6)) = true := by
  decide +kernel

/-- R43, R46: a posted write that times out marks its master late and is recorded. -/
theorem test_downstreamTimeout_write :
    gives (exec .downstreamTimeout (busy { up .quiet with pass := { buffer := some posted } } .passPath
        { addr := 0x04000014 })) (fun t =>
      t.isLate 1 && decide (t.arbiter.fault = ⟨0x04000014, .write, 1⟩) && decide (t.report.pending = 0x80)) = true := by
  decide +kernel

/-- R45: the first failure of an internal access is retried, with no record and no cause. -/
theorem test_downstreamErrorCompletion_retries :
    gives (exec .downstreamErrorCompletion (busy { up .quiet with sweep := { job := .capture 0 1 } } .sweep
        { addr := 0x04000014 })) (fun t =>
      decide (t.arbiter.sweep = some { addr := 0x04000014, retry := true }) && decide (t.report.pending = 0)
        && decide (t.arbiter.fault.kind = .none)) = true := by
  decide +kernel

/-- R58 row 8, R60: a write outside a window makes a SETTLED owner DRIFTED. -/
theorem test_classify_drift :
    gives (exec .classify (waits (one .quiet settledA) (record .outside false))) (fun t =>
      decide ((t.circuit 0).state = .drifted) && decide (t.report.pending = 0x20)
        && decide (t.journal.judged.map Judged.classification = [.drift])) = true := by
  decide +kernel

/-- R62: a write in OPEN brings a SETTLED owner into the window. -/
theorem test_classify_joins_window :
    gives (exec .classify (waits (one .opened settledA) (record .opened false))) (fun t =>
      decide ((t.circuit 0).state = .held) && decide ((t.circuit 0).prior = some .settled)
        && decide ((t.circuit 0).changeCount = 1) && (t.circuit 0).undeclared) = true := by
  decide +kernel

/-- R88: floor(−345 / 4) is −87, so from −1200 a reading of −1545 gives −1287. -/
theorem test_arrivalConsumption_smooths :
    gives (exec .arrivalConsumption (hears { one .quiet { settledA with shift := 2 } with
        trace := { evidence := [(2, { power := some (-1200) })] } } (arrival (-1545)))) (fun t =>
      decide ((t.evidenceOf 2).power = some (-1287)) && decide ((t.evidenceOf 2).accepted = some tagA)) = true := by
  decide +kernel

/-- R88: the rounding is toward minus infinity. -/
theorem test_smooth_rounding :
    smooth 2 (some 0) 105 = 26 ∧ smooth 2 (some 0) (-345) = -87 ∧ smooth 2 (some 0) (-3) = -1 := by decide

/-- R138 row 3: a channel gone silent makes a CONFIRMED circuit SILENT with NO_ARRIVALS. -/
theorem test_silenceExpiry_silences :
    gives (exec (.silenceExpiry 2) { one .verifying { settledA with state := .confirmed, cause := some .matched } with
        trace := { evidence := [(2, { accepted := some tagA, silence := .running 0 })] } }) (fun t =>
      decide ((t.circuit 0).state = .silent) && decide ((t.circuit 0).cause = some .noArrivals)
        && t.verdict.steady.running) = true := by
  decide +kernel

/-- The seven words of a LAYOUT that places `lay` (R172). -/
def layWords : List Word := [0x04000000, 0x00060010, 0x05000000, 0x05800000, 0x00080000, 0x06000000, 0]

/-- R161, R172: a LAYOUT's fields. -/
theorem test_layout_accepted :
    gives (exec .layout (hand State.reset 1 layWords)) (fun t =>
      decide (t.layout = some lay) && decide (t.window.state = .quiet) && t.report.windowOwed) = true := by
  decide +kernel

/-- R160 check 1: a connection base that is no multiple of 4 is refused with detail 1. -/
theorem test_layout_misaligned_refused :
    gives (exec .layout (hand State.reset 1 (0x04000002 :: layWords.tail))) (fun t =>
      decide (t.layout = none) && decide (t.report.pending = 0x40)
        && decide (t.directive.step = .completing [(0, 0x0004C109)] 1)) = true := by
  decide +kernel

/-- R15, R162: GUARD fences the entries of a SETTLED circuit. -/
theorem test_setPolicy_guard_fences :
    gives (exec .setPolicy (hand (one .quiet settledA) 2 [0x01FF0002])) (fun t =>
      decide (t.store.mode = .guard) && (t.mapEntry 5).fenced && !(t.mapEntry 7).fenced) = true := by
  decide +kernel

/-- A LOAD of circuit 1 on channel 3, tag octets 0 to 11, persistence 3, shift 2, tolerance 200, floor −3000, entries
7 and 9 (R172). -/
def loadChain : List (List Word) :=
  [[0x3309, 0x00030001, 0x03020100, 0x07060504, 0x0B0A0908, 0x00C80203, 0x0002F448, 0x00090007],
   [0x2009, 0, 0, 0, 0, 0, 0, 0]]

/-- R20, R172: a LOAD in QUIET. -/
theorem test_load_in_quiet :
    gives (exec .load { up .quiet with directive := { step := .checked, chain := loadChain } }) (fun t =>
      decide (t.circuit 1 = { state := .loading, channel := some 3, tag := Vector.ofFn fun i => BitVec.ofNat 8 i.val,
                              persistence := 3, shift := 2, tolerance := 200, floor := -3000, entries := [7, 9] })
        && decide (t.sweep.job = .capture 1 1)) = true := by
  decide +kernel

/-- R24, R17: a DROP frees the entries and the channel and keeps the fence hits. -/
theorem test_drop_releases :
    gives (exec .drop (hand (one .quiet { settledA with fenceHits := 4 }) 4 [0])) (fun t =>
      decide (t.circuit 0 = { fenceHits := 4 }) && decide (t.mapEntry 5 = {}) && decide (t.boundTo 2 = none)) = true := by
  decide +kernel

/-- The words of an OPEN of window 7 that names circuit 0: deadline 100 s, settle 5 s, verify 40 s, silence 200 ms,
steady 2 s (R172). -/
def openWords : List Word := [0x02010007, 0x00050064, 0x00C80028, 0x00000000]

/-- R103, R102: an OPEN holds the named circuit with its prior state and its channel's power. -/
theorem test_openWindow_holds_named :
    gives (exec .openWindow (hand { one .quiet settledA with
        trace := { evidence := [(2, { accepted := some tagA, power := some (-1200) })] } } 5 openWords)) (fun t =>
      decide (t.window.number = 7) && decide (t.window.deadline = .running 100000)
        && decide ((t.circuit 0).state = .held) && decide ((t.circuit 0).prior = some .settled)
        && decide ((t.circuit 0).reference = some (-1200)) && decide ((t.circuit 0).entryCondition = some .good)) = true := by
  decide +kernel

/-- R105, R172: a MARK of one circuit. -/
theorem test_mark_holds_named :
    gives (exec .mark (hand (one .opened settledA) 6 [0x00000001])) (fun t =>
      decide ((t.circuit 0).state = .held) && Table.get false t.window.workSet 0) = true := by
  decide +kernel

/-- R108: the close makes a HELD circuit PENDING and fences its entries. -/
theorem test_close_pends_and_fences :
    gives (exec .close (hand (one .opened { settledA with state := .held }) 7 [])) (fun t =>
      decide ((t.circuit 0).state = .pending) && (t.mapEntry 5).fenced && decide (t.window.state = .settling)) = true := by
  decide +kernel

/-- R114: an untouched circuit returns to SETTLED, and one that was written becomes DRIFTED. -/
theorem test_abandon_returns :
    gives (exec .abandon (hand (one .opened { settledA with state := .held, prior := some .settled }) 8 [])) (fun t =>
      decide ((t.circuit 0).state = .settled)) = true
    ∧ gives (exec .abandon (hand (one .opened { settledA with
        state := .held, prior := some .settled, changeCount := 1 }) 8 [])) (fun t =>
      decide ((t.circuit 0).state = .drifted)) = true := by
  decide +kernel

/-- R115: ACCEPT takes the swept words of a DEGRADED circuit as baseline only with the option. -/
theorem test_accept_degraded :
    gives (exec .accept (hand (one .concluded { settledA with state := .degraded, swept := some [1, 2] }) 9 [1]))
      (fun t => decide ((t.circuit 0).state = .settled) && decide ((t.circuit 0).baseline = some [1, 2])) = true
    ∧ gives (exec .accept (hand (one .concluded { settledA with state := .degraded, swept := some [1, 2] }) 9 [0]))
      (fun t => decide ((t.circuit 0).state = .faulted) && decide ((t.circuit 0).baseline = some [7, 8])) = true := by
  decide +kernel

/-- R148: a RECHECK keeps a CONFIRMED circuit and sends a DEGRADED one back to PENDING. -/
theorem test_recheck :
    gives (exec .recheck (hand (one .concluded { settledA with state := .degraded, cause := some .powerLow }) 10 []))
      (fun t => decide ((t.circuit 0).state = .pending) && !t.verdict.steady.running) = true
    ∧ gives (exec .recheck (hand (one .concluded { settledA with state := .confirmed, cause := some .matched }) 10 []))
      (fun t => decide ((t.circuit 0).state = .confirmed) && t.verdict.steady.running) = true := by
  decide +kernel

/-- R130: a RESTORE with the engine idle starts at once. -/
theorem test_restore_starts :
    gives (exec .restore (hand (one .quiet { settledA with state := .drifted }) 11 [0])) (fun t =>
      decide ((t.circuit 0).state = .restoring) && (t.mapEntry 5).fenced
        && decide (t.arbiter.sweep = some { addr := 0x04000014, write := some (7, 0xF) })) = true := by
  decide +kernel

/-- R107: the deadline closes the window with OVERTIME. -/
theorem test_deadlineExpiry_overtime :
    gives (exec .deadlineExpiry { up .opened with window := { state := .opened, deadline := .running 0, settleTime := 5 } })
      (fun t => t.window.overtime && decide (t.window.settle = .running 5000) && decide (t.report.pending = 2)) = true := by
  decide +kernel

/-- R136: with no window circuit the settle expiry leads through the sweep and VERIFYING to CONCLUDED. -/
theorem test_settleExpiry_empty_window :
    gives (exec .settleExpiry { up .settling with window := { state := .settling, settle := .running 0 } })
      (fun t => decide (t.window.state = .concluded) && decide (t.report.pending = 1)) = true := by
  decide +kernel

/-- R142: the steady timer concludes the window. -/
theorem test_steadyExpiry_concludes :
    gives (exec .steadyExpiry { up .verifying with verdict := { steady := ⟨true, 0⟩, limit := ⟨true, 9⟩ } })
      (fun t => decide (t.window.state = .concluded) && decide (t.verdict.limit = ⟨false, 9⟩)) = true := by
  decide +kernel

/-- R144: the verify limit makes a PENDING circuit SILENT with NO_EVIDENCE. -/
theorem test_verifyLimitExpiry_silences :
    gives (exec .verifyLimitExpiry { one .verifying { settledA with state := .pending } with
        verdict := { limit := ⟨true, 0⟩ } }) (fun t =>
      decide ((t.circuit 0).state = .silent) && decide ((t.circuit 0).cause = some .noEvidence)
        && decide ((t.circuit 0).verdictChanges = 1)) = true := by
  decide +kernel

/-- R121, R21: the last capture read makes the circuit SETTLED. -/
theorem test_captureReadComplete_settles :
    gives (exec (.captureReadComplete 8) (busy { one .quiet { settledA with state := .loading, baseline := some [7] } with
        sweep := { job := .capture 0 2 }, directive := { step := .held, chain := [[0x2309]] } } .sweep
        { addr := 0x04000018 })) (fun t =>
      decide (t.circuit 0 = settledA) && decide (t.directive.step = .completing [(0, 0x00004309)] 1)) = true := by
  decide +kernel

/-- R122: a different word gives CHANGED. -/
theorem test_closeSweepReadComplete_changed :
    gives (exec (.closeSweepReadComplete 9) (busy { one .sweeping { settledA with state := .pending } with
        sweep := { job := .closeSweep [0] 0 2 [7] } } .sweep { addr := 0x04000018 })) (fun t =>
      decide ((t.circuit 0).swept = some [7, 9]) && decide ((t.circuit 0).sweepResult = some .changed)
        && decide (t.window.state = .verifying)) = true := by
  decide +kernel

/-- R126: a different word makes the circuit DRIFTED. -/
theorem test_driftSweepReadComplete_drifts :
    gives (exec (.driftSweepReadComplete 9) (busy { one .quiet settledA with sweep := { job := .driftSweep 0 2 } } .sweep
        { addr := 0x04000018 })) (fun t =>
      decide ((t.circuit 0).state = .drifted) && decide (t.sweep.job = .none)) = true := by
  decide +kernel

/-- R131: the last restore write makes the circuit SETTLED with outcome DONE. -/
theorem test_restoreWriteComplete_done :
    gives (exec .restoreWriteComplete (busy { one .quiet { settledA with state := .restoring } with
        sweep := { job := .restore 0 2 .drifted } } .sweep { addr := 0x04000018 })) (fun t =>
      decide ((t.circuit 0).state = .settled) && decide ((t.circuit 0).restoreOutcome = some .done)
        && decide (t.report.pending = 0x100)) = true := by
  decide +kernel

/-- R153: a word 0 without the ready mark is stale. -/
theorem test_directiveFetchReadComplete_stale :
    gives (exec (.directiveFetchReadComplete 0x0109) (busy { up .quiet with directive := { step := .fetching [] } }
        .directive { addr := 0 })) (fun t => decide (t.directive.step = .idle)) = true := by
  decide +kernel

/-- R157: after the last completion write the unit advances, from slot 63 to slot 0. -/
theorem test_directiveCompletionWriteEnd_wraps :
    gives (exec .directiveCompletionWriteEnd (busy { up .quiet with directive := {
        nextSlot := 63, step := .completing [(63, 0)] 1, chain := [[0x2309]] } } .directive { addr := 0x7E0 })) (fun t =>
      decide (t.directive.nextSlot = 0) && decide (t.directive.step = .idle) && decide (t.directive.chain = [])) = true := by
  decide +kernel

/-- R165, R173: a WINDOW report goes before a CIRCUIT report, at record 2 of the ring. -/
theorem test_reportWriteStart_window_first :
    gives (exec .reportWriteStart { up .quiet with report := { producer := 66, consumer := 66, windowOwed := true, owed := [(0, true)] } })
      (fun t => decide (t.arbiter.report = some { addr := 0x05800020, write := some (0x00010042, 0xF) })
        && !t.report.windowOwed) = true := by
  decide +kernel

/-- R164: the producer index wraps after 65535. -/
theorem test_reportWordComplete_wraps :
    gives (exec .reportWordComplete (busy { up .quiet with report := {
        producer := 0xFFFF, writer := .writing .window 0 [(3, 0)] false } } .report { addr := 0 })) (fun t =>
      decide (t.report.producer = 0) && decide (t.report.writer = .idle)) = true := by
  decide +kernel

/-- R166: HOLD_OFF ends. -/
theorem test_reportHoldOffExpiry :
    gives (exec .reportHoldOffExpiry { up .quiet with report := { writer := .holdOff 0 } })
      (fun t => decide (t.report.writer = .idle)) = true := by
  decide +kernel

/-- R168: a rewrite takes the next generation. -/
theorem test_summaryRewriteStart_generation :
    gives (exec .summaryRewriteStart { up .quiet with report := { wanted := true, generation := 41 } }) (fun t =>
      decide (t.report.generation = 42) && !t.report.wanted
        && decide (t.arbiter.report = some { addr := 0x06000000, write := some (42, 0xF) })) = true := by
  decide +kernel

/-- R169: the attention word written clears the unseen marks of the snapshot's causes not raised since. -/
theorem test_summaryWordComplete_seen :
    gives (exec .summaryWordComplete (busy { up .quiet with report := {
        pending := 0x7, unseen := 0x7, raised := 0x2, summary := .writing 0x06000000 [(2, 7), (3, 0)] 0x3 } } .report
        { addr := 0x06000008 })) (fun t =>
      decide (t.report.unseen = 0x6) && decide (t.arbiter.report = some { addr := 0x0600000C, write := some (0, 0xF) }))
      = true := by
  decide +kernel

/-- R168: HOLD_OFF ends. -/
theorem test_summaryHoldOffExpiry :
    gives (exec .summaryHoldOffExpiry { up .quiet with report := { summary := .holdOff 0 } })
      (fun t => decide (t.report.summary = .idle)) = true := by
  decide +kernel

/-- R169: the pulse ends. -/
theorem test_attnPulseEnd :
    gives (exec .attnPulseEnd { up .quiet with report := { attn := some 0 } })
      (fun t => decide (t.report.attn = none)) = true := by
  decide +kernel

/-- Section 0.6: the 25 000th period is the 1 ms tick. -/
theorem test_period_tick :
    gives (step { up .opened with prescale := 24999, window := { state := .opened, deadline := .running 7 } }) (fun t =>
      decide (t.prescale = 0) && decide (t.window.deadline = .running 6)) = true := by
  decide +kernel

/-- A step carries out the front command and keeps the rest. -/
theorem test_step_takes_front :
    gives (step { up .quiet with pending := [.attnPulseEnd, .classify] }) (fun t => decide (t.pending = [.classify]))
      = true := by
  decide +kernel

/-! ### Witnesses: what meets each statement's hypotheses, clause by clause -/

theorem up_takesAtOnce (w : WindowState) (m : Master) : (up w).takesAtOnce m := ⟨rfl, rfl, rfl, rfl⟩

theorem one_takesAtOnce (w : WindowState) (r : Circuit) (m : Master) : (one w r).takesAtOnce m := ⟨rfl, rfl, rfl, rfl⟩

theorem up_entriesAgree (w : WindowState) : (up w).entriesAgree := by
  intro i c
  have hm : (up w).mapEntry i = {} := rfl
  have hc : (up w).circuit c = {} := rfl
  simp [hm, hc]

theorem up_channelsAgree (w : WindowState) : (up w).channelsAgree := by
  intro ch c
  have hb : (up w).boundTo ch = none := rfl
  have hc : (up w).circuit c = {} := rfl
  simp [hb, hc]

theorem one_entriesAgree (w : WindowState) (r : Circuit) (h : r.entries = [5, 6]) : (one w r).entriesAgree := by
  intro i c
  have hm : (one w r).mapEntry i = if 5 = i then { owner := some 0, fenced := fences .watch r.state }
      else if 6 = i then { owner := some 0, fenced := fences .watch r.state } else {} := rfl
  have hc : (one w r).circuit c = if 0 = c then r else {} := rfl
  rw [hm, hc]
  by_cases h0 : 0 = c
  · subst h0
    by_cases h5 : 5 = i
    · simp [← h5, h]
    · by_cases h6 : 6 = i
      · simp [← h6, h]
      · simp [h5, h6, h, Ne.symm h5, Ne.symm h6]
  · by_cases h5 : 5 = i
    · simp [h5, h0]
    · by_cases h6 : 6 = i
      · simp [h5, h6, h0]
      · simp [h5, h6, h0]

theorem one_channelsAgree (w : WindowState) (r : Circuit) (h : r.channel = some 2) : (one w r).channelsAgree := by
  intro ch c
  have hb : (one w r).boundTo ch = if 2 = ch then some 0 else none := rfl
  have hc : (one w r).circuit c = if 0 = c then r else {} := rfl
  rw [hb, hc]
  by_cases h2 : 2 = ch <;> by_cases h0 : 0 = c <;> simp [h2, h0, h]

theorem one_fencesAgree (w : WindowState) (r : Circuit) : (one w r).fencesAgree := by
  intro i
  have hm : (one w r).mapEntry i = if 5 = i then { owner := some 0, fenced := fences .watch r.state }
      else if 6 = i then { owner := some 0, fenced := fences .watch r.state } else {} := rfl
  rw [hm]
  by_cases h5 : 5 = i
  · rw [if_pos h5]; rfl
  · by_cases h6 : 6 = i
    · rw [if_neg h5, if_pos h6]; rfl
    · rw [if_neg h5, if_neg h6]; rfl

theorem witness_EmptyQueuePassesPeriod :
    ∃ s : State, s.pending = [] ∧ s.inReset = false ∧ s.prescale + 1 < 25000 ∧ s.report.attn = some 25
      ∧ s.pass.step = .hold closingAccess 499 ∧ s.arbiter.port = some ⟨.sweep, { addr := 0 }, 99⟩ :=
  ⟨{ busy (up .quiet) .sweep { addr := 0 } with
      prescale := 24998, report := { attn := some 25 }, pass := { step := .hold closingAccess 499 }
      arbiter := { port := some ⟨.sweep, { addr := 0 }, 99⟩ } }, rfl, rfl, by decide, rfl, rfl, rfl⟩

theorem witness_EmptyQueuePassesPeriod_tick :
    ∃ s : State, s.pending = [] ∧ s.inReset = false ∧ 25000 ≤ s.prescale + 1 ∧ s.window.deadline = .running 1
      ∧ s.window.settle = .running 1 ∧ (s.evidenceOf 2).silence = .running 1 ∧ s.report.writer = .holdOff 1
      ∧ s.report.summary = .holdOff 1 :=
  ⟨{ up .opened with
      prescale := 24999, window := { deadline := .running 1, settle := .running 1 }
      trace := { evidence := [(2, { silence := .running 1 })] }
      report := { writer := .holdOff 1, summary := .holdOff 1 } },
    rfl, rfl, by decide, rfl, rfl, rfl, rfl, rfl⟩

theorem witness_ResetHoldsPart :
    ∃ (s : State) (c : Instr), s.inReset = true ∧ s.pending = [] ∧ c.wellFormed = true ∧ c ≠ .reset
      ∧ ∀ d b, c ≠ .resetEnd d b :=
  ⟨{ State.reset with inReset := true }, .classify, rfl, rfl, rfl, nofun, nofun⟩

theorem witness_ResetHoldsPart_out : ∃ s : State, s.inReset = false := ⟨State.reset, rfl⟩

theorem witness_ConnectionWriteAccepted :
    ∃ (i : Instr) (addr : WordAddr) (data : Word) (lanes : Lanes) (m : Master) (s : State) (index : Nat),
      presentsWrite i addr data lanes m ∧ lanes ≠ 0 ∧ s.takesAtOnce m
      ∧ s.addrClass (4 * addr.toNat) = .connection index ∧ s.journal.occupancy < 384 :=
  ⟨.connectionWrite 0x0100000F 1 8 1, 0x0100000F, 1, 8, 1, one .opened settledA, 15, .inl rfl, by decide,
    one_takesAtOnce _ _ _, by decide +kernel, by decide⟩

/-- A full journal. -/
def full (s : State) : State := { s with journal := { waiting := List.replicate 384 (record .opened false) } }

theorem witness_ConnectionWriteAccepted_lost :
    ∃ (i : Instr) (addr : WordAddr) (data : Word) (lanes : Lanes) (m : Master) (s : State) (index : Nat),
      presentsWrite i addr data lanes m ∧ lanes ≠ 0 ∧ s.takesAtOnce m
      ∧ s.addrClass (4 * addr.toNat) = .connection index ∧ s.journal.occupancy = 384
      ∧ s.window.state ≠ .noLayout :=
  ⟨.connectionWrite 0x01000000 1 0xF 1, 0x01000000, 1, 0xF, 1, full (one .opened settledA), 0, .inl rfl, by decide,
    ⟨rfl, rfl, rfl, rfl⟩, by decide +kernel, by decide +kernel, by decide⟩

theorem witness_LandingTagAssembled (w : Nat) (hw : w = 0 ∨ w = 2) :
    ∃ (i : Instr) (addr : WordAddr) (data : Word) (lanes : Lanes) (m : Master) (s : State) (ch : Nat),
      presentsWrite i addr data lanes m ∧ lanes ≠ 0 ∧ s.takesAtOnce m
      ∧ s.addrClass (4 * addr.toNat) = .landing ch w ∧ w < 3 ∧ s.isFramer m = true := by
  obtain rfl | rfl := hw
  · exact ⟨.landingTagWrite 0x01400000 1 1 3, 0x01400000, 1, 1, 3, up .quiet, 0, .inr (.inl rfl), by decide,
      up_takesAtOnce _ _, by decide +kernel, by decide, by decide +kernel⟩
  · exact ⟨.landingTagWrite 0x01400016 1 8 3, 0x01400016, 1, 8, 3, up .quiet, 5, .inr (.inl rfl), by decide,
      up_takesAtOnce _ _, by decide +kernel, by decide, by decide +kernel⟩

/-- Each of the six cases of a write that calls for no hand-off, in the state `up .quiet`, which takes any access at
once (`up_takesAtOnce`). -/
theorem witness_OtherWritesForwardedOnly :
    (up .quiet).addrClass (4 * (0x01C00000 : WordAddr).toNat) = .other
    ∧ (up .quiet).addrClass (4 * (0x01800002 : WordAddr).toNat) = .attentionWord
    ∧ (up .quiet).addrClass (4 * (0x000001FF : WordAddr).toNat) = .directive 63 7
    ∧ ((up .quiet).addrClass (4 * (0x01400000 : WordAddr).toNat) = .landing 0 0 ∧ (up .quiet).isFramer 1 = false)
    ∧ (up .quiet).addrClass (4 * (0x01400017 : WordAddr).toNat) = .landing 5 3
    ∧ (up .quiet).addrClass (4 * (0x0180000D : WordAddr).toNat) = .consumerWord := by
  decide +kernel

theorem witness_OtherWritesForwardedOnly_presented :
    ∃ (i : Instr), presentsWrite i 0x01C00000 1 2 1 ∧ (2 : Lanes) ≠ 0 ∧ (up .quiet).takesAtOnce 1 :=
  ⟨.upstreamWrite 0x01C00000 1 2 1, .inr (.inr (.inr (.inr (.inl rfl)))), by decide, up_takesAtOnce _ _⟩

theorem witness_ClosingWordTakenOrHeld :
    ∃ (i : Instr) (addr : WordAddr) (data : Word) (m : Master) (s : State) (ch : Nat),
      presentsWrite i addr data 0xF m ∧ s.takesAtOnce m ∧ s.addrClass (4 * addr.toNat) = .landing ch 3
      ∧ s.isFramer m = true ∧ s.trace.arrivals.length < 32 :=
  ⟨.closingWord 0x01400003 0x10000 3, 0x01400003, 0x10000, 3, up .quiet, 0, .inr (.inr (.inl ⟨rfl, rfl⟩)),
    up_takesAtOnce _ _, by decide +kernel, by decide +kernel, by decide⟩

theorem witness_ClosingWordTakenOrHeld_full :
    ∃ (i : Instr) (addr : WordAddr) (data : Word) (m : Master) (s : State) (ch : Nat),
      presentsWrite i addr data 0xF m ∧ s.takesAtOnce m ∧ s.addrClass (4 * addr.toNat) = .landing ch 3
      ∧ s.isFramer m = true ∧ 32 ≤ s.trace.arrivals.length :=
  ⟨.closingWord 0x01400017 0x10000 3, 0x01400017, 0x10000, 3,
    { up .quiet with trace := { arrivals := List.replicate 32 (arrival 0) } }, 5, .inr (.inr (.inl ⟨rfl, rfl⟩)),
    ⟨rfl, rfl, rfl, rfl⟩, by decide +kernel, by decide +kernel, by decide⟩

theorem witness_ClosingWordTakenOrHeld_limit :
    ∃ (s : State) (a : Access) (n : Nat) (data : Word) (lanes : Lanes) (ch w : Nat),
      s.inReset = false ∧ s.pass.step = .hold a n ∧ a.op = .write data lanes ∧ a.cls = .landing ch w :=
  ⟨{ up .quiet with pass := { step := .hold closingAccess 500 } }, closingAccess, 500, _, _, _, _, rfl, rfl, rfl, rfl⟩

theorem witness_ConsumerIndexTakenOrRejected :
    ∃ (i : Instr) (addr : WordAddr) (data : Word) (lanes : Lanes) (m : Master) (s : State) (l : Layout),
      presentsWrite i addr data lanes m ∧ s.takesAtOnce m ∧ s.layout = some l
      ∧ s.addrClass (4 * addr.toNat) = .consumerWord ∧ lanes.getLsbD 0 = true ∧ lanes.getLsbD 1 = true :=
  ⟨.consumerWordWrite 0x0180000D 0 3 1, 0x0180000D, 0, 3, 1, up .quiet, lay, .inr (.inr (.inr (.inl rfl))),
    up_takesAtOnce _ _, rfl, by decide +kernel, by decide, by decide⟩

theorem witness_AccessWaitsOrEndsLate :
    ∃ (i : Instr) (addr : WordAddr) (op : AccessOp) (m : Master) (s : State),
      presents i addr op m ∧ s.inReset = false ∧ s.pass.step = .idle ∧ s.isLate m = false
      ∧ s.pass.buffer.isSome = true :=
  ⟨.upstreamRead 0 4, 0, .read, 4, { up .quiet with pass := { buffer := some posted } }, .inl rfl, rfl, rfl, rfl, rfl⟩

theorem witness_AccessWaitsOrEndsLate_read :
    ∃ (i : Instr) (addr : WordAddr) (op : AccessOp) (m : Master) (s : State),
      presents i addr op m ∧ s.inReset = false ∧ s.pass.step = .idle ∧ s.isLate m = false ∧ s.pass.buffer = none
      ∧ op = .read :=
  ⟨.upstreamRead 0 4, 0, .read, 4, up .quiet, .inl rfl, rfl, rfl, rfl, rfl, rfl⟩

theorem witness_AccessWaitsOrEndsLate_late :
    ∃ (i : Instr) (addr : WordAddr) (op : AccessOp) (m : Master) (s : State),
      presents i addr op m ∧ s.inReset = false ∧ s.pass.step = .idle ∧ s.isLate m = true :=
  ⟨.lateErrorAccess 0 (.write 1 1) 15, 0, .write 1 1, 15, { up .quiet with pass := { lateMarks := [(15, true)] } },
    ⟨by decide, .inr (.inr (.inr (.inr (.inr rfl))))⟩, rfl, rfl, by decide⟩

theorem witness_ForwardedWriteCompletes :
    ∃ (s : State) (r : Request) (p : Posted), s.inProgress .passPath r ∧ s.pass.buffer = some p
      ∧ s.sweep.held = none ∧ s.directive.step ≠ .idle ∧ s.directive.step ≠ .chainWait ∧ s.pass.step = .idle :=
  ⟨busy { up .quiet with pass := { buffer := some readyWrite }, directive := { step := .checked } } .passPath
    { addr := 0x60 }, _, readyWrite, ⟨rfl, _, rfl⟩, rfl, rfl, by decide, by decide, rfl⟩

theorem witness_ForwardedWriteCompletes_waiting :
    ∃ (s : State) (r : Request) (p : Posted) (a : Access), s.inProgress .passPath r ∧ s.pass.buffer = some p
      ∧ s.sweep.held = none ∧ s.directive.step ≠ .idle ∧ s.directive.step ≠ .chainWait
      ∧ s.pass.step = .drainWait a ∧ a.op = .read ∧ s.isLate a.master = false :=
  ⟨busy { up .quiet with
      pass := { buffer := some posted, step := .drainWait ⟨0, .read, 2, .directive 0 0⟩ }
      directive := { step := .held } } .passPath { addr := 0x60 }, _, posted, _, ⟨rfl, _, rfl⟩, rfl, rfl, by decide,
    by decide, rfl, rfl, rfl⟩

theorem witness_ForwardedReadCompletes :
    ∃ (s : State) (r : Request) (a : Access), s.inProgress .passPath r ∧ s.pass.buffer = none
      ∧ s.pass.step = .readOut a ∧ a.cls = .attentionWord :=
  ⟨busy { up .quiet with pass := { step := .readOut ⟨0x06000008, .read, 0, .attentionWord⟩ } } .passPath
    { addr := 0x06000008 }, _, _, ⟨rfl, _, rfl⟩, rfl, rfl, rfl⟩

theorem witness_PortGrantedByStarvationRule :
    ∃ (s : State) (r i : Request) (who : Requester), s.inReset = false ∧ s.arbiter.port = none
      ∧ s.passRequest = some r ∧ s.arbiter.internalRequest = some (who, i) ∧ s.arbiter.starvation < 8 :=
  ⟨{ up .quiet with pass := { buffer := some posted }, arbiter := { starvation := 7, sweep := some { addr := 4 } } },
    _, _, _, rfl, rfl, rfl, rfl, by decide⟩

theorem witness_PortGrantedByStarvationRule_alone :
    ∃ (s : State) (r : Request), s.inReset = false ∧ s.arbiter.port = none ∧ s.passRequest = some r
      ∧ s.arbiter.internalRequest = none :=
  ⟨{ up .quiet with pass := { buffer := some posted }, arbiter := { starvation := 8 } }, _, rfl, rfl, rfl, rfl⟩

theorem witness_PortGrantedByStarvationRule_internal :
    (∃ (s : State) (i : Request), s.inReset = false ∧ s.arbiter.port = none ∧ 8 ≤ s.arbiter.starvation
      ∧ s.arbiter.directive = some i)
    ∧ (∃ (s : State) (i : Request), s.inReset = false ∧ s.arbiter.port = none ∧ s.passRequest = none
      ∧ s.arbiter.directive = none ∧ s.arbiter.sweep = some i)
    ∧ (∃ (s : State) (i : Request), s.inReset = false ∧ s.arbiter.port = none ∧ s.passRequest = none
      ∧ s.arbiter.directive = none ∧ s.arbiter.sweep = none ∧ s.arbiter.report = some i) :=
  ⟨⟨{ up .quiet with arbiter := { starvation := 8, directive := some { addr := 4 } } }, _, rfl, rfl, by decide, rfl⟩,
    ⟨{ up .quiet with arbiter := { sweep := some { addr := 4 } } }, _, rfl, rfl, rfl, rfl, rfl⟩,
    ⟨{ up .quiet with arbiter := { report := some { addr := 4 } } }, _, rfl, rfl, rfl, rfl, rfl, rfl⟩⟩

theorem witness_ForwardedAccessFails :
    (∃ (i : Instr) (s : State) (r : Request) (a : Access), failsAccess i ∧ s.inProgress .passPath r
      ∧ s.pass.buffer = none ∧ s.pass.step = .readOut a)
    ∧ (∃ (i : Instr) (s : State) (r : Request) (p : Posted), failsAccess i ∧ s.inProgress .passPath r
      ∧ s.pass.buffer = some p ∧ s.pass.step = .idle ∧ s.sweep.held = none) :=
  ⟨⟨.downstreamTimeout, busy { up .quiet with pass := { step := .readOut ⟨0, .read, 0, .other⟩ } } .passPath
      { addr := 0 }, _, _, .inl rfl, ⟨rfl, _, rfl⟩, rfl, rfl⟩,
    ⟨.downstreamErrorCompletion, busy { up .quiet with pass := { buffer := some posted } } .passPath { addr := 0 }, _, _,
      .inr rfl, ⟨rfl, _, rfl⟩, rfl, rfl, rfl⟩⟩

theorem witness_InternalAccessFails :
    (∃ (i : Instr) (s : State) (r : Request) (who : Requester), failsAccess i ∧ who ≠ .passPath
      ∧ s.inProgress who r ∧ r.retry = false)
    ∧ (∃ (i : Instr) (s : State) (r : Request) (who : Requester) (words : List Word), failsAccess i
      ∧ who ≠ .passPath ∧ s.inProgress who r ∧ r.retry = true ∧ r.stale = false ∧ who = .directive
      ∧ s.directive.step = .fetching words) :=
  ⟨⟨.downstreamTimeout, busy (up .quiet) .sweep { addr := 0 }, _, .sweep, .inl rfl, by decide, ⟨rfl, _, rfl⟩, rfl⟩,
    ⟨.downstreamTimeout, busy { up .quiet with directive := { step := .fetching [0x2109] } } .directive
      { addr := 4, retry := true }, _, .directive, _, .inl rfl, by decide, ⟨rfl, _, rfl⟩, rfl, rfl, rfl, rfl⟩⟩

theorem witness_RecordClassifiedByRow :
    ∃ (s : State) (r : ChangeRecord) (rest : List ChangeRecord), s.inReset = false ∧ s.journal.waiting = r :: rest
      ∧ r.fenced = false ∧ (s.mapEntry r.index).owner = some 0 ∧ (s.circuit 0).state = .settled
      ∧ r.phase = .opened ∧ s.window.state = .settling :=
  ⟨waits (one .settling settledA) (record .opened false), _, _, rfl, rfl, rfl, rfl, rfl, rfl, rfl⟩

theorem witness_RecordClassifiedByRow_rows :
    (record .opened true).fenced = true ∧ ((up .opened).mapEntry 5).owner = none
    ∧ ((one .opened { settledA with state := .held }).circuit 0).state = .held
    ∧ ((one .quiet { settledA with state := .loading }).circuit 0).state = .loading := by
  decide +kernel

theorem witness_ClassifiedWritesCounted :
    (∃ (s : State) (r : ChangeRecord) (rest : List ChangeRecord), s.inReset = false
      ∧ s.journal.waiting = r :: rest ∧ r.fenced = true)
    ∧ ∃ (s : State) (r : ChangeRecord) (rest : List ChangeRecord) (c : Nat), s.inReset = false
      ∧ s.journal.waiting = r :: rest ∧ r.fenced = false ∧ r.phase = .opened ∧ (s.mapEntry r.index).owner = some c
      ∧ (s.circuit c).state = .held ∧ (s.circuit c).changeCount = 255 ∧ s.window.state = .opened :=
  ⟨⟨waits (one .opened settledA) (record .opened true), _, _, rfl, rfl, rfl⟩,
    ⟨waits (one .opened { settledA with state := .held, changeCount := 255 }) (record .opened false), _, _, 0, rfl, rfl,
      rfl, rfl, rfl, rfl, rfl, rfl⟩⟩

theorem witness_DriftRecordJudged :
    ∃ (s : State) (r : ChangeRecord) (rest : List ChangeRecord) (c : Nat), s.inReset = false ∧ s.fencesAgree
      ∧ s.journal.waiting = r :: rest ∧ r.fenced = false ∧ (s.mapEntry r.index).owner = some c
      ∧ ¬(r.phase = .opened ∧ (s.window.state = .opened ∨ s.window.state = .settling))
      ∧ (s.circuit c).state = .settled :=
  ⟨waits (one .quiet settledA) (record .opened false), _, _, 0, rfl, one_fencesAgree .quiet settledA, rfl, rfl,
    rfl, by decide, rfl⟩

theorem witness_DriftRecordJudged_window :
    ∃ (s : State) (r : ChangeRecord) (rest : List ChangeRecord) (c : Nat), s.inReset = false ∧ s.fencesAgree
      ∧ s.journal.waiting = r :: rest ∧ r.fenced = false ∧ (s.mapEntry r.index).owner = some c
      ∧ ¬(r.phase = .opened ∧ (s.window.state = .opened ∨ s.window.state = .settling))
      ∧ (s.circuit c).state.inWindow = true ∧ (s.circuit c).prior = some .settled :=
  ⟨waits (one .opened { settledA with state := .held, prior := some .settled }) (record .outside false), _, _, 0, rfl,
    one_fencesAgree .opened { settledA with state := .held, prior := some .settled }, rfl, rfl, rfl, by decide, rfl, rfl⟩

theorem witness_UndeclaredWriteJoinsWindow :
    ∃ (s : State) (r : ChangeRecord) (rest : List ChangeRecord) (c : Nat) (o : OutsideState), s.inReset = false
      ∧ s.entriesAgree ∧ s.journal.waiting = r :: rest ∧ r.fenced = false ∧ r.phase = .opened
      ∧ (s.mapEntry r.index).owner = some c ∧ (s.circuit c).state = o.toState ∧ s.window.state = .settling :=
  ⟨waits (one .settling settledA) (record .opened false), _, _, 0, .settled, rfl, one_entriesAgree .settling settledA rfl, rfl, rfl,
    rfl, rfl, rfl, rfl⟩

theorem witness_ArrivalConsumed_unbound :
    (∃ (s : State) (a : Arrival) (rest : List Arrival), s.inReset = false ∧ s.trace.arrivals = a :: rest
      ∧ s.boundTo a.channel = none ∧ s.pass.step = .idle)
    ∧ ∃ (s : State) (a : Arrival) (rest : List Arrival) (h : Access) (n : Nat) (data : Word) (lanes : Lanes)
        (ch w : Nat), s.inReset = false ∧ s.trace.arrivals = a :: rest ∧ s.boundTo a.channel = none
      ∧ s.pass.step = .hold h n ∧ h.op = .write data lanes ∧ h.cls = .landing ch w ∧ rest.length = 31 :=
  ⟨⟨hears (up .quiet) (arrival 0), _, _, rfl, rfl, rfl, rfl⟩,
    ⟨{ up .quiet with
        trace := { arrivals := arrival 0 :: List.replicate 31 (arrival 1) }
        pass := { step := .hold closingAccess 0 } }, _, _, closingAccess, 0, _, _, _, _, rfl, rfl, rfl, rfl, rfl, rfl, rfl⟩⟩

theorem witness_ArrivalConsumed_bound :
    ∃ (s : State) (a : Arrival) (rest : List Arrival) (c : Nat), s.inReset = false
      ∧ s.trace.arrivals = a :: rest ∧ s.boundTo a.channel = some c ∧ s.window.state ≠ .verifying
      ∧ ∀ h n, s.pass.step ≠ .hold h n :=
  ⟨hears (one .quiet settledA) (arrival (-32768)), _, _, 0, rfl, rfl, rfl, by decide, nofun⟩

theorem witness_SmoothingProperties :
    ∃ (k : Nat) (old r : Int), k ≤ 4 ∧ -5000 ≤ old ∧ old ≤ 1000 ∧ -5000 ≤ r ∧ r ≤ 1000 ∧ 0 < r - old
      ∧ r - old < 2 ^ k :=
  ⟨4, -5000, -4985, by decide⟩

theorem witness_EvaluationRows :
    ∃ (r : Circuit) (e : Evidence), ¬(r.state = .broken ∧ r.cause = some .unreadable) ∧ e.dark = false
      ∧ e.silence ≠ .expired ∧ e.accepted = some tagA ∧ tagA ≠ Vector.replicate 12 0 ∧ tagA = r.tag
      ∧ e.power = some (-3000) ∧ r.reference = some (-2800) :=
  ⟨{ settledA with reference := some (-2800) }, { accepted := some tagA, power := some (-3000) }, by decide +kernel⟩

theorem witness_EvaluatedInVerifying_silence :
    ∃ (s : State) (ch : Fin 512) (c n : Nat), s.inReset = false ∧ (s.evidenceOf ch).silence = .running n
      ∧ s.boundTo ch = some c ∧ (s.circuit c).state.inWindow = true ∧ s.window.state = .verifying :=
  ⟨{ one .verifying { settledA with state := .pending } with trace := { evidence := [(2, { silence := .running 0 })] } },
    2, 0, 0, rfl, rfl, rfl, rfl, rfl⟩

theorem witness_EvaluatedInVerifying_arrival :
    ∃ (s : State) (a : Arrival) (rest : List Arrival) (c : Nat), s.inReset = false ∧ s.trace.arrivals = a :: rest
      ∧ s.boundTo a.channel = some c ∧ (s.circuit c).state.inWindow = true ∧ s.window.state = .verifying
      ∧ ∀ h n, s.pass.step ≠ .hold h n :=
  ⟨hears (one .verifying { settledA with state := .pending }) (arrival 0), _, _, 0, rfl, rfl, rfl, rfl, rfl, nofun⟩

theorem witness_TimersConcludeWindow :
    ∃ s : State, s.inReset = false ∧ s.window.state = .verifying ∧ s.verdict.steady.running = true
      ∧ s.verdict.limit.running = true ∧ (s.circuit 0).state = .pending :=
  ⟨{ one .verifying { settledA with state := .pending } with verdict := ⟨⟨true, 0⟩, ⟨true, 0⟩⟩ }, rfl, rfl, rfl, rfl, rfl⟩

theorem witness_OpenExecuted :
    ∃ s : State, s.inHand .openWindow ∧ s.openRefusal = none ∧ (s.circuit 0).state ≠ .empty
      ∧ 0 ∈ (openFields s.directive.chain).work :=
  ⟨hand (one .quiet settledA) 5 openWords, ⟨rfl, rfl, by decide +kernel⟩, by decide +kernel, by decide, by decide +kernel⟩

theorem witness_MarkExecuted : ∃ s : State, s.inHand .mark ∧ s.markRefusal = none :=
  ⟨hand (one .opened settledA) 6 [1], ⟨rfl, rfl, by decide +kernel⟩, by decide +kernel⟩

theorem witness_WindowCloses :
    (∃ s : State, s.window.state = .opened ∧ s.inHand .close)
    ∧ ∃ (s : State) (n : Nat), s.window.state = .opened ∧ s.inReset = false ∧ s.window.deadline = .running n :=
  ⟨⟨hand (one .opened { settledA with state := .held }) 7 [], rfl, rfl, rfl, by decide +kernel⟩,
    ⟨{ up .opened with window := { state := .opened, deadline := .running 0 } }, 0, rfl, rfl, rfl⟩⟩

theorem witness_SettleExpiryStartsSweep :
    (∃ (s : State) (n : Nat), s.inReset = false ∧ s.window.state = .settling ∧ s.window.settle = .running n
      ∧ s.journal.openBacklog ≠ 0)
    ∧ ∃ (s : State) (n c : Nat) (rest : List Nat), s.inReset = false ∧ s.window.state = .settling
      ∧ s.window.settle = .running n ∧ s.journal.openBacklog = 0 ∧ s.arbiter.sweep = none
      ∧ (∀ g, s.arbiter.port = some g → g.who ≠ .sweep)
      ∧ (if s.window.overrun then s.loadedCircuits else s.windowCircuits) = c :: rest :=
  ⟨⟨waits { one .settling settledA with window := { state := .settling, settle := .running 0 } } (record .opened false),
      0, rfl, rfl, rfl, by decide +kernel⟩,
    ⟨{ one .settling settledA with window := { state := .settling, settle := .running 0, overrun := true } }, 0, 0, [],
      rfl, rfl, rfl, by decide +kernel, rfl, nofun, by decide +kernel⟩⟩

theorem witness_AbandonExecuted :
    ∃ s : State, s.inHand .abandon ∧ s.abandonRefusal = none ∧ s.sweep.restoreList = []
      ∧ s.sweep.captureRequest = none ∧ (s.circuit 0).state.inWindow = true :=
  ⟨hand (one .opened { settledA with state := .held, prior := some .settled }) 8 [], ⟨rfl, rfl, by decide +kernel⟩,
    by decide +kernel, rfl, rfl, rfl⟩

theorem witness_AcceptExecuted :
    ∃ s : State, s.inHand .accept ∧ s.window.state = .concluded ∧ s.sweep.restoreList = []
      ∧ s.sweep.captureRequest = none ∧ (s.circuit 0).state = .degraded :=
  ⟨hand (one .concluded { settledA with state := .degraded, swept := some [7, 8] }) 9 [1],
    ⟨rfl, rfl, by decide +kernel⟩, rfl, rfl, rfl, rfl⟩

theorem witness_RecheckExecuted :
    ∃ s : State, s.inHand .recheck ∧ s.window.state = .concluded ∧ s.windowCircuits ≠ [] ∧ s.channelsAgree :=
  ⟨hand (one .concluded { settledA with state := .degraded }) 10 [], ⟨rfl, rfl, by decide +kernel⟩, rfl,
    by decide +kernel, one_channelsAgree .concluded { settledA with state := .degraded } rfl⟩

theorem witness_RefusedDirectiveChangesNothing :
    ∃ (k : DirectiveKind) (s : State) (a : DirectiveAnswer), s.inHand k ∧ refusalOf k s = some a :=
  ⟨.close, hand (up .quiet) 7 [], ⟨.refusedState, 512⟩, ⟨rfl, rfl, by decide +kernel⟩, by decide +kernel⟩

theorem witness_AcceptedDirectiveAnsweredDone :
    ∃ (k : DirectiveKind) (s : State), s.inHand k ∧ refusalOf k s = none ∧ (k = .load → s.window.state ≠ .quiet) :=
  ⟨.close, hand (up .opened) 7 [], ⟨rfl, rfl, by decide +kernel⟩, by decide +kernel, nofun⟩

theorem witness_LayoutAccepted :
    ∃ s : State, s.inHand .layout ∧ s.layoutRefusal = none ∧ s.report.writer.isWriting = false :=
  ⟨hand State.reset 1 layWords, ⟨rfl, rfl, by decide +kernel⟩, by decide +kernel, rfl⟩

theorem witness_LayoutAccepted_overtaking :
    ∃ (s : State) (c hits base : Nat) (left : List (Nat × Word)), s.inHand .layout ∧ s.layoutRefusal = none
      ∧ s.report.writer = .writing (.circuit c hits) base left false :=
  ⟨hand { up .quiet with report := { writer := .writing (.circuit 511 255) 0 [(3, 0)] false } } 1 layWords, 511, 255, 0,
    _, ⟨rfl, rfl, by decide +kernel⟩, by decide +kernel, rfl⟩

theorem witness_PolicyTaken :
    ∃ s : State, s.inHand .setPolicy ∧ s.policyRefusal = none
      ∧ ((chainWord s.directive.chain 0 1).extractLsb' 0 8).toNat = 2 ∧ s.store.mode = .watch :=
  ⟨hand (one .quiet settledA) 2 [0x01FF0002], ⟨rfl, rfl, by decide +kernel⟩, by decide +kernel, by decide +kernel, rfl⟩

theorem witness_LoadInQuietStartsCapture :
    ∃ s : State, s.inHand .load ∧ s.loadRefusal = none ∧ s.window.state = .quiet ∧ s.entriesAgree ∧ s.channelsAgree :=
  ⟨{ up .quiet with directive := { step := .checked, chain := loadChain } }, ⟨rfl, rfl, by decide +kernel⟩,
    by decide +kernel, rfl, up_entriesAgree .quiet, up_channelsAgree .quiet⟩

theorem witness_LoadInOpen_empty :
    ∃ s : State, s.inHand .load ∧ s.loadRefusal = none ∧ s.window.state = .opened ∧ s.entriesAgree ∧ s.channelsAgree
      ∧ (s.circuit s.loadInHand.circuit).state = .empty ∧ (s.circuit s.loadInHand.circuit).entries = []
      ∧ (s.circuit s.loadInHand.circuit).channel = none :=
  ⟨{ up .opened with directive := { step := .checked, chain := loadChain } }, ⟨rfl, rfl, by decide +kernel⟩,
    by decide +kernel, rfl, up_entriesAgree .opened, up_channelsAgree .opened, by decide +kernel, by decide +kernel,
    by decide +kernel⟩

/-- A LOAD of circuit 0 on channel 3 with entries 7 and 9. -/
def loadChain0 : List (List Word) :=
  [[0x3309, 0x00030000, 0, 0, 0, 0, 0x00020000, 0x00090007], [0x2009, 0, 0, 0, 0, 0, 0, 0]]

theorem witness_LoadInOpen_held :
    ∃ s : State, s.inHand .load ∧ s.loadRefusal = none ∧ s.window.state = .opened ∧ s.entriesAgree ∧ s.channelsAgree
      ∧ (s.circuit s.loadInHand.circuit).state = .held :=
  ⟨{ one .opened { settledA with state := .held } with directive := { step := .checked, chain := loadChain0 } },
    ⟨rfl, rfl, by decide +kernel⟩, by decide +kernel, rfl, one_entriesAgree .opened { settledA with state := .held } rfl,
    one_channelsAgree .opened { settledA with state := .held } rfl, by decide +kernel⟩

theorem witness_DropReleases :
    (∃ s : State, s.inHand .drop ∧ s.dropRefusal = none ∧ (s.circuit 0).state = .settled
      ∧ ((chainWord s.directive.chain 0 1).extractLsb' 0 16).toNat = 0)
    ∧ ∃ s : State, s.inHand .drop ∧ s.dropRefusal = none
      ∧ (s.circuit ((chainWord s.directive.chain 0 1).extractLsb' 0 16).toNat).state = .empty :=
  ⟨⟨hand (one .quiet settledA) 4 [0], ⟨rfl, rfl, by decide +kernel⟩, by decide +kernel, rfl, by decide +kernel⟩,
    ⟨hand (one .quiet settledA) 4 [511], ⟨rfl, rfl, by decide +kernel⟩, by decide +kernel, by decide +kernel⟩⟩

theorem witness_RestoreListedOrStarted :
    (∃ s : State, s.inHand .restore ∧ s.restoreRefusal = none ∧ s.sweep.job ≠ .none)
    ∧ ∃ s : State, s.inHand .restore ∧ s.restoreRefusal = none ∧ s.sweep.job = .none ∧ s.sweep.restoreList = []
      ∧ s.sweep.captureRequest = none ∧ s.sweep.driftRequest = false :=
  ⟨⟨hand { one .quiet { settledA with state := .drifted } with sweep := { job := .driftSweep 1 1 } } 11 [0],
      ⟨rfl, rfl, by decide +kernel⟩, by decide +kernel, by decide⟩,
    ⟨hand (one .quiet { settledA with state := .faulted }) 11 [0], ⟨rfl, rfl, by decide +kernel⟩, by decide +kernel, rfl,
      rfl, rfl, rfl⟩⟩

/-- A fetch read in progress with these words of the slot read. -/
def fetches (words : List Word) : State :=
  busy { up .quiet with directive := { step := .fetching words } } .directive { addr := 0 }

theorem fetches_inProgress (words : List Word) : (fetches words).inProgress .directive { addr := 0 } := ⟨rfl, 0, rfl⟩

theorem witness_FetchReadCompletes :
    (∃ data : Word, (fetches []).directive.step = .fetching [] ∧ data.getLsbD 13 = false
      ∧ Table.get false (fetches []).directive.ready 0 = false)
    ∧ (∃ (words : List Word), words ≠ [] ∧ words.length = 6 ∧ (fetches words).directive.step = .fetching words)
    ∧ (∃ (words : List Word) (data : Word), words.length = 7 ∧ ((words ++ [data]).getD 0 0).getLsbD 12 = true
      ∧ (fetches words).directive.chain.length < 2)
    ∧ ∃ (words : List Word) (data : Word), words.length = 7 ∧ ((words ++ [data]).getD 0 0).getLsbD 12 = false
      ∧ State.chainRefusal { fetches words with
          directive := { (fetches words).directive with chain := [words ++ [data]] } } = none :=
  ⟨⟨0x0109, rfl, by decide, rfl⟩, ⟨[0x2109, 0, 0, 0, 0, 0], by decide, rfl, rfl⟩,
    ⟨[0x3309, 0, 0, 0, 0, 0, 0], 0, rfl, by decide, by decide⟩,
    ⟨[0x2709, 0, 0, 0, 0, 0, 0], 0, rfl, by decide, by decide +kernel⟩⟩

theorem witness_CompletionWriteEnds :
    (∃ (s : State) (r : Request) (left : List (Nat × Word)), s.inProgress .directive r
      ∧ s.directive.step = .completing ((1, 0) :: left) 2 ∧ left = [(0, 0)])
    ∧ (∃ (s : State) (r : Request), s.inProgress .directive r ∧ s.directive.step = .completing [(63, 0)] 1
      ∧ Table.get false s.directive.ready ((s.directive.nextSlot + 1) % 64) = false)
    ∧ ∃ (s : State) (r : Request), s.inProgress .directive r ∧ s.directive.step = .completing [(63, 0)] 1
      ∧ Table.get false s.directive.ready ((s.directive.nextSlot + 1) % 64) = true :=
  ⟨⟨busy { up .quiet with directive := { step := .completing [(1, 0), (0, 0)] 2 } } .directive { addr := 0 }, _, _,
      ⟨rfl, _, rfl⟩, rfl, rfl⟩,
    ⟨busy { up .quiet with directive := { nextSlot := 63, step := .completing [(63, 0)] 1 } } .directive { addr := 0 }, _,
      ⟨rfl, _, rfl⟩, rfl, rfl⟩,
    ⟨busy { up .quiet with directive := { nextSlot := 63, step := .completing [(63, 0)] 1, ready := [(0, true)] } }
      .directive { addr := 0 }, _, ⟨rfl, _, rfl⟩, rfl, rfl⟩⟩

/-- A sweep access of this job in progress, with circuit 0 loaded with this record. -/
def sweeps (w : WindowState) (r : Circuit) (j : Job) (retry : Bool) : State :=
  busy { one w r with sweep := { job := j } } .sweep { addr := 0x04000014, retry }

theorem sweeps_inProgress (w : WindowState) (r : Circuit) (j : Job) (b : Bool) :
    (sweeps w r j b).inProgress .sweep { addr := 0x04000014, retry := b } := ⟨rfl, 0, rfl⟩

theorem witness_CaptureReads :
    (∃ (s : State) (r : Request) (c p : Nat), s.inProgress .sweep r ∧ r.stale = false ∧ s.arbiter.sweep = none
      ∧ s.sweep.job = .capture c p ∧ p < (s.circuit c).entries.length)
    ∧ (∃ (s : State) (r : Request) (c p : Nat), s.inProgress .sweep r ∧ r.stale = false ∧ s.arbiter.sweep = none
      ∧ s.sweep.job = .capture c p ∧ (s.circuit c).entries.length ≤ p ∧ (s.circuit c).state = .loading
      ∧ s.sweep.driftRequest = false ∧ s.sweep.restoreList = [] ∧ s.sweep.captureRequest = none)
    ∧ ∃ (s : State) (r : Request) (c p : Nat), s.inProgress .sweep r ∧ r.retry = true ∧ r.stale = false
      ∧ s.sweep.job = .capture c p ∧ (s.circuit c).state = .loading ∧ s.sweep.driftRequest = false
      ∧ s.sweep.restoreList = [] ∧ s.sweep.captureRequest = none :=
  ⟨⟨sweeps .quiet { settledA with state := .loading } (.capture 0 1) false, _, 0, 1, sweeps_inProgress _ _ _ _, rfl,
      rfl, rfl, by decide⟩,
    ⟨sweeps .quiet { settledA with state := .loading } (.capture 0 2) false, _, 0, 2, sweeps_inProgress _ _ _ _, rfl,
      rfl, rfl, by decide, rfl, rfl, rfl, rfl⟩,
    ⟨sweeps .quiet { settledA with state := .loading } (.capture 0 2) true, _, 0, 2, sweeps_inProgress _ _ _ _, rfl, rfl,
      rfl, rfl, rfl, rfl, rfl⟩⟩

theorem witness_CloseSweepReads :
    (∃ (s : State) (r : Request) (set : List Nat) (c p : Nat) (words : List Word), s.inProgress .sweep r
      ∧ r.stale = false ∧ s.arbiter.sweep = none ∧ s.sweep.job = .closeSweep set c p words ∧ p < (s.circuit c).entries.length)
    ∧ (∃ (s : State) (r : Request) (set : List Nat) (c p n : Nat) (words : List Word), s.inProgress .sweep r
      ∧ r.stale = false ∧ s.arbiter.sweep = none ∧ s.sweep.job = .closeSweep set c p words
      ∧ (s.circuit c).entries.length ≤ p ∧ (set.find? fun k => decide (c < k)) = some n)
    ∧ ∃ (s : State) (r : Request) (set : List Nat) (c p n : Nat) (words : List Word), s.inProgress .sweep r
      ∧ r.retry = true ∧ r.stale = false ∧ s.arbiter.sweep = none ∧ s.sweep.job = .closeSweep set c p words
      ∧ (set.find? fun k => decide (c < k)) = some n :=
  ⟨⟨sweeps .sweeping { settledA with state := .pending } (.closeSweep [0, 511] 0 1 []) false, _, _, 0, 1, _,
      sweeps_inProgress _ _ _ _, rfl, rfl, rfl, by decide⟩,
    ⟨sweeps .sweeping { settledA with state := .pending } (.closeSweep [0, 511] 0 2 [7]) false, _, _, 0, 2, 511, _,
      sweeps_inProgress _ _ _ _, rfl, rfl, rfl, by decide, rfl⟩,
    ⟨sweeps .sweeping settledA (.closeSweep [0, 511] 0 2 [7]) true, _, _, 0, 2, 511, _, sweeps_inProgress _ _ _ _, rfl,
      rfl, rfl, rfl, rfl⟩⟩

theorem witness_CloseSweepEndEntersVerifying :
    ∃ (s : State) (r : Request) (set : List Nat) (c p : Nat) (words : List Word), s.inProgress .sweep r
      ∧ r.stale = false ∧ s.sweep.job = .closeSweep set c p words ∧ c < 512 ∧ s.window.state = .sweeping
      ∧ (s.circuit c).state.inWindow = true ∧ (s.circuit c).entries.length ≤ p
      ∧ (set.find? fun k => decide (c < k)) = none :=
  ⟨sweeps .sweeping { settledA with state := .pending } (.closeSweep [0] 0 2 [7]) false, _, _, 0, 2, _,
    sweeps_inProgress _ _ _ _, rfl, rfl, by decide, rfl, rfl, by decide, rfl⟩

theorem witness_DriftSweepReadCompared :
    ∃ (s : State) (r : Request) (c p : Nat) (base : List Word), s.inProgress .sweep r ∧ r.stale = false
      ∧ s.arbiter.sweep = none ∧ s.sweep.job = .driftSweep c p ∧ (s.circuit c).baseline = some base
      ∧ (s.circuit c).state = .settled ∧ base.getD (p - 1) 0 = 7 ∧ p < (s.circuit c).entries.length :=
  ⟨sweeps .quiet settledA (.driftSweep 0 1) false, _, 0, 1, _, sweeps_inProgress _ _ _ _, rfl, rfl, rfl,
    rfl, rfl, rfl, by decide⟩

theorem witness_DriftSweepReadCompared_next :
    ∃ (s : State) (r : Request) (c p n : Nat) (base : List Word), s.inProgress .sweep r ∧ r.stale = false
      ∧ s.arbiter.sweep = none ∧ s.sweep.job = .driftSweep c p ∧ (s.circuit c).baseline = some base ∧ c < n ∧ n < 512
      ∧ (s.circuit n).state = .settled ∧ (∀ k, c < k → k < n → (s.circuit k).state ≠ .settled)
      ∧ base.getD (p - 1) 0 ≠ 9 :=
  ⟨{ sweeps .quiet settledA (.driftSweep 0 2) false with store := { circuits := [(0, settledA), (1, settledA)] } }, _, 0,
    2, 1, _, ⟨rfl, _, rfl⟩, rfl, rfl, rfl, rfl, by decide, by decide, rfl, fun k _ _ => by omega, by decide⟩

theorem witness_RestoreWritesAndEnds (b : Bool) (p : Nat) :
    ∃ (s : State) (r : Request) (c : Nat) (earlier : OutsideState), s.inProgress .sweep r ∧ r.stale = false
      ∧ r.retry = b ∧ s.arbiter.sweep = none ∧ s.sweep.job = .restore c p earlier ∧ s.sweep.captureRequest = none
      ∧ s.sweep.driftRequest = false ∧ s.sweep.restoreList = [] ∧ (s.circuit c).entries.length = 2 :=
  ⟨sweeps .quiet { settledA with state := .restoring } (.restore 0 p .faulted) b, _, 0, _, sweeps_inProgress _ _ _ _, rfl,
    rfl, rfl, rfl, rfl, rfl, rfl, rfl⟩

/-- R164 and R165 let a record start. -/
def mayReport (s : State) : Prop :=
  s.inReset = false ∧ s.layout = some lay ∧ s.report.writer = .idle
    ∧ (s.report.producer - s.report.consumer).toNat ≠ lay.reportSize ∧ s.report.summary.isWriting = false
    ∧ ¬(s.report.summary = .idle ∧ s.report.wanted = true)

theorem witness_ReportChosenInOrder :
    (∃ s : State, mayReport s ∧ s.report.windowOwed = true
      ∧ (s.report.producer - s.report.consumer).toNat = 63)
    ∧ (∃ (s : State) (j : Judged) (rest : List Judged), mayReport s ∧ s.report.windowOwed = false
      ∧ s.journal.judged = j :: rest)
    ∧ ∃ (s : State) (n : Nat), mayReport s ∧ n < 512 ∧ s.report.windowOwed = false ∧ s.journal.judged = []
      ∧ (∀ k, k < n → Table.get false s.report.owed ((s.report.lastReported + 1 + k) % 512) = false)
      ∧ Table.get false s.report.owed ((s.report.lastReported + 1 + n) % 512) = true :=
  ⟨⟨{ up .quiet with report := { windowOwed := true, producer := 63 } }, by unfold mayReport; decide +kernel, rfl, rfl⟩,
    ⟨{ up .quiet with
        journal := { judged := [⟨record .opened true, .fenced, none⟩] }
        report := { wanted := true, summary := .holdOff 1 } }, _, _, by unfold mayReport; decide +kernel, rfl, rfl⟩,
    ⟨{ up .quiet with report := { owed := [(511, true)], lastReported := 511 } }, 511, by unfold mayReport; decide +kernel,
      by decide, rfl, rfl, by decide +kernel, rfl⟩⟩

/-- A WINDOW report owed, and each condition of R164 and R165 missing in turn; and nothing owed. -/
theorem witness_ReportChosenInOrder_lacking :
    State.reset.layout = none
    ∧ (∃ s : State, s.inReset = false ∧ s.report.windowOwed = true ∧ s.report.writer = .holdOff 1)
    ∧ (∃ s : State, s.inReset = false ∧ s.report.windowOwed = true ∧ s.layout = some lay
      ∧ (s.report.producer - s.report.consumer).toNat = lay.reportSize)
    ∧ (∃ s : State, s.inReset = false ∧ s.report.windowOwed = true ∧ s.report.summary.isWriting = true)
    ∧ (∃ s : State, s.inReset = false ∧ s.report.windowOwed = true ∧ s.report.summary = .idle ∧ s.report.wanted = true)
    ∧ ∃ s : State, s.report.windowOwed = false ∧ s.journal.judged = []
      ∧ ∀ c, c < 512 → Table.get false s.report.owed c = false :=
  ⟨rfl, ⟨{ up .quiet with report := { windowOwed := true, writer := .holdOff 1 } }, rfl, rfl, rfl⟩,
    ⟨{ up .quiet with report := { windowOwed := true, producer := 10, consumer := 0xFFCA } }, rfl, rfl, rfl,
      by decide +kernel⟩,
    ⟨{ up .quiet with report := { windowOwed := true, summary := .writing 0 [(0, 0)] 0 } }, rfl, rfl, rfl⟩,
    ⟨{ up .quiet with report := { windowOwed := true, wanted := true } }, rfl, rfl, rfl, rfl⟩,
    ⟨up .quiet, rfl, rfl, fun _ _ => rfl⟩⟩

theorem witness_ReportWordCompletes (item : RecordItem) (left : List (Nat × Word)) (overtaken : Bool) :
    ∃ (s : State) (r : Request) (base : Nat) (done : Nat × Word), s.inProgress .report r
      ∧ s.report.writer = .writing item base (done :: left) overtaken ∧ s.journal.demand ≠ .owed :=
  ⟨busy { up .quiet with report := { writer := .writing item 0 ((0, 0) :: left) overtaken } } .report { addr := 0 }, _, 0,
    _, ⟨rfl, _, rfl⟩, rfl, by simp [busy, up]⟩

theorem witness_ReportWordCompletes_holdOff : ∃ (s : State) (n : Nat), s.inReset = false ∧ s.report.writer = .holdOff n :=
  ⟨{ up .quiet with report := { writer := .holdOff 1 } }, 1, rfl, rfl⟩

theorem witness_SummaryRewritten :
    (∃ (s : State) (l : Layout), s.inReset = false ∧ s.summaryDue = true ∧ s.layout = some l)
    ∧ (∃ (s : State) (r : Request) (base : Nat) (w : Word) (left : List (Nat × Word)) (snapshot : BitVec 9),
      s.inProgress .report r ∧ s.report.summary = .writing base ((2, w) :: left) snapshot)
    ∧ ∃ (s : State) (n : Nat), s.inReset = false ∧ s.report.summary = .holdOff n :=
  ⟨⟨{ up .quiet with report := { wanted := true } }, lay, rfl, by decide +kernel, rfl⟩,
    ⟨busy { up .quiet with report := { summary := .writing 0 [(2, 7)] 7 } } .report { addr := 8 }, _, 0, _, _, _,
      ⟨rfl, _, rfl⟩, rfl⟩,
    ⟨{ up .quiet with report := { summary := .holdOff 1 } }, 1, rfl, rfl⟩⟩

theorem witness_AttentionRaisedAndPulseEnds :
    ∃ (s : State) (c d : Cause), s.report.enables.getLsbD c.bit = false ∧ s.report.enables.getLsbD d.bit = true
      ∧ s.inReset = false :=
  ⟨{ up .quiet with report := { enables := 0x100 } }, .concluded, .restoreDone, by decide, by decide, rfl⟩

/-! ### Witnesses of the clauses for waiting accesses, answers of checks, second failures and the summary -/

/-- A posted write in progress downstream, this access waiting behind it, the Directive Unit held. -/
def awaits (a : Access) : State :=
  busy { one .quiet settledA with
    pass := { buffer := some posted, step := .drainWait a }, directive := { step := .held } } .passPath { addr := 0x04000014 }

/-- A connection write to word 15 that waits. -/
def waitingWrite : Access := { addr := 0x0400003C, op := .write 1 0x8, master := 2, cls := .connection 15 }

theorem witness_ForwardedWriteCompletes_taken :
    (∃ (s : State) (r : Request) (p : Posted) (a : Access), s.inProgress .passPath r ∧ s.pass.buffer = some p
      ∧ s.sweep.held = none ∧ s.pass.step = .drainWait a ∧ s.isLate a.master = true)
    ∧ ∃ (s : State) (r : Request) (p : Posted) (a : Access) (addr : WordAddr), s.inProgress .passPath r
      ∧ s.pass.buffer = some p ∧ s.directive.step ≠ .idle ∧ s.directive.step ≠ .chainWait ∧ s.sweep.held = none
      ∧ s.pass.step = .drainWait a ∧ a.addr = 4 * addr.toNat ∧ a.cls = s.addrClass a.addr ∧ s.pass.answer = none
      ∧ a.op = .write 1 0x8 ∧ ∀ data, a.op ≠ .write data 0 :=
  ⟨⟨busy { up .quiet with
        pass := { buffer := some posted, step := .drainWait closingAccess, lateMarks := [(3, true)] } } .passPath
        { addr := 0 }, _, _, closingAccess, ⟨rfl, _, rfl⟩, rfl, rfl, rfl, rfl⟩,
    ⟨awaits waitingWrite, _, _, waitingWrite, 0x0100000F, ⟨rfl, _, rfl⟩, rfl, by decide, by decide, rfl, rfl, rfl,
      by decide +kernel, rfl, rfl, by simp [waitingWrite]⟩⟩

theorem witness_ForwardedWriteCompletes_held (data : Option Word) :
    ∃ (s : State) (r : Request) (p : Posted), s.inProgress .passPath r ∧ s.pass.buffer = some p
      ∧ s.directive.step ≠ .idle ∧ s.directive.step ≠ .chainWait ∧ s.sweep.held = some (0x04000014, data)
      ∧ s.arbiter.sweep = none ∧ s.pass.step = .idle :=
  ⟨busy { up .quiet with
      pass := { buffer := some posted }, sweep := { held := some (0x04000014, data) }, directive := { step := .held } }
    .passPath { addr := 0 }, _, _, ⟨rfl, _, rfl⟩, rfl, nofun, nofun, rfl, rfl, rfl⟩

/-- The slot waited for is 3 in IDLE, whose mark the completing write sets, and 0 after slot 63 in CHAIN_WAIT. -/
theorem witness_ForwardedWriteCompletes_fetch :
    (∃ (s : State) (r : Request) (p : Posted), s.inProgress .passPath r ∧ s.pass.buffer = some p
      ∧ s.directive.step = .idle ∧ s.sweep.held = none ∧ s.pass.step = .idle
      ∧ p.cls = .directive ((s.directive.nextSlot + s.directive.chain.length) % 64) 0 ∧ p.lanes.getLsbD 1 = true
      ∧ p.data.getLsbD 13 = true)
    ∧ ∃ (s : State) (r : Request) (p : Posted), s.inProgress .passPath r ∧ s.pass.buffer = some p
      ∧ s.directive.step = .chainWait ∧ s.sweep.held = none ∧ s.pass.step = .idle
      ∧ (s.directive.nextSlot + s.directive.chain.length) % 64 = 0 ∧ p.cls ≠ .directive 0 0
      ∧ Table.get false s.directive.ready 0 = false :=
  ⟨⟨busy { up .quiet with pass := { buffer := some readyWrite }, directive := { nextSlot := 3 } } .passPath { addr := 0x60 },
      _, readyWrite, ⟨rfl, _, rfl⟩, rfl, rfl, rfl, rfl, rfl, by decide, by decide⟩,
    ⟨busy { up .quiet with
        pass := { buffer := some readyWrite }, directive := { nextSlot := 63, step := .chainWait, chain := [[0x3309]] } }
        .passPath { addr := 0x60 }, _, readyWrite, ⟨rfl, _, rfl⟩, rfl, rfl, rfl, rfl, rfl, by decide, rfl⟩⟩

theorem witness_ForwardedAccessFails_waiting :
    (∃ (s : State) (r : Request) (p : Posted) (a : Access), s.inProgress .passPath r ∧ s.pass.buffer = some p
      ∧ s.pass.step = .drainWait a ∧ s.sweep.held = none ∧ a.master = p.master)
    ∧ (∃ (s : State) (r : Request) (p : Posted) (a : Access) (addr : WordAddr), s.inProgress .passPath r
      ∧ s.pass.buffer = some p ∧ s.pass.step = .drainWait a ∧ s.sweep.held = none ∧ a.master ≠ p.master
      ∧ a.addr = 4 * addr.toNat ∧ a.cls = s.addrClass a.addr ∧ s.pass.answer = none
      ∧ ∀ data, a.op ≠ .write data 0)
    ∧ ∃ (s : State) (r : Request) (p : Posted), s.inProgress .passPath r ∧ s.pass.buffer = some p
      ∧ s.pass.step = .idle ∧ s.sweep.held = some (0x04000014, none) ∧ s.arbiter.sweep = none :=
  ⟨⟨awaits { waitingWrite with master := 1 }, _, _, _, ⟨rfl, _, rfl⟩, rfl, rfl, rfl, rfl⟩,
    ⟨awaits waitingWrite, _, _, waitingWrite, 0x0100000F, ⟨rfl, _, rfl⟩, rfl, rfl, rfl, by decide, rfl, by decide +kernel,
      rfl, by simp [waitingWrite]⟩,
    ⟨busy { up .quiet with pass := { buffer := some posted }, sweep := { held := some (0x04000014, none) } } .passPath
      { addr := 0 }, _, _, ⟨rfl, _, rfl⟩, rfl, rfl, rfl, rfl⟩⟩

/-- A bound arrival that is judged, in VERIFYING, and one that ends a hold with the queue full. -/
theorem witness_ArrivalConsumed_judged :
    (∃ (s : State) (a : Arrival) (rest : List Arrival) (c : Nat), s.inReset = false ∧ s.trace.arrivals = a :: rest
      ∧ s.boundTo a.channel = some c ∧ s.window.state = .verifying ∧ (s.circuit c).state.inWindow = true)
    ∧ ∃ (s : State) (a : Arrival) (rest : List Arrival) (c : Nat) (h : Access) (n : Nat) (data : Word) (lanes : Lanes)
        (ch w : Nat), s.inReset = false ∧ s.trace.arrivals = a :: rest ∧ s.boundTo a.channel = some c
      ∧ s.pass.step = .hold h n ∧ h.op = .write data lanes ∧ h.cls = .landing ch w ∧ rest.length = 31 :=
  ⟨⟨hears (one .verifying { settledA with state := .pending }) (arrival 0), _, _, 0, rfl, rfl, rfl, rfl, rfl⟩,
    ⟨{ one .quiet settledA with
        trace := { arrivals := arrival 0 :: List.replicate 31 (arrival 1) }
        pass := { step := .hold closingAccess 0 } }, _, _, 0, closingAccess, 0, _, _, _, _, rfl, rfl, rfl, rfl, rfl, rfl,
      rfl⟩⟩

theorem witness_SettleExpiryStartsSweep_empty :
    ∃ (s : State) (n : Nat), s.inReset = false ∧ s.window.state = .settling ∧ s.window.settle = .running n
      ∧ s.journal.openBacklog = 0 ∧ (if s.window.overrun then s.loadedCircuits else s.windowCircuits) = [] :=
  ⟨{ one .settling settledA with window := { state := .settling, settle := .running 0 } }, 0, rfl, rfl, rfl, rfl,
    by decide +kernel⟩

/-- The settle timer has expired and this record is the first of those that wait. -/
def backlogged (s : State) (rest : List ChangeRecord) : State :=
  { s with
    window := { state := .settling, settle := .expired }
    journal := { waiting := record .opened true :: rest, nextSeq := 2 } }

/-- A backlog that stays; one that empties with a window circuit; one that empties with none. -/
theorem witness_SettleExpiryStartsSweep_backlog :
    (∃ (s : State) (r : ChangeRecord) (rest : List ChangeRecord), s.inReset = false ∧ s.window.state = .settling
      ∧ s.window.settle = .expired ∧ r.phase = .opened ∧ s.journal.waiting = r :: rest ∧ s.arbiter.sweep = none
      ∧ (∀ g, s.arbiter.port = some g → g.who ≠ .sweep) ∧ ∃ q ∈ rest, q.phase = .opened)
    ∧ ∀ b : Bool, ∃ (s : State) (r : ChangeRecord) (rest : List ChangeRecord), s.inReset = false
      ∧ s.window.state = .settling ∧ s.window.settle = .expired ∧ r.phase = .opened ∧ s.journal.waiting = r :: rest
      ∧ s.arbiter.sweep = none ∧ (∀ g, s.arbiter.port = some g → g.who ≠ .sweep) ∧ (∀ q ∈ rest, q.phase ≠ .opened)
      ∧ s.windowCircuits.isEmpty = b :=
  ⟨⟨backlogged (one .settling { settledA with state := .pending }) [record .opened false], _, _, rfl, rfl, rfl, rfl, rfl,
      rfl, nofun, _, List.mem_singleton_self _, rfl⟩, fun b => by
    cases b
    · exact ⟨backlogged (one .settling { settledA with state := .pending }) [record .closed false], _, _, rfl, rfl, rfl, rfl,
        rfl, rfl, nofun, by decide, by decide +kernel⟩
    · exact ⟨backlogged (one .settling settledA) [], _, _, rfl, rfl, rfl, rfl, rfl, rfl, nofun, nofun,
        by decide +kernel⟩⟩

/-- The OPEN in `hand` names the circuits of the words 4 and 5, as many as its word 1 counts. -/
theorem witness_OpenExecuted_answers :
    (∃ s : State, s.window.state ≠ .noLayout ∧ (openFields s.directive.chain).workCount = 33)
    ∧ (∃ s : State, s.window.state ≠ .noLayout ∧ (openFields s.directive.chain).work = [511, 512])
    ∧ (∃ s : State, s.window.state = .opened ∧ (openFields s.directive.chain).work = [0])
    ∧ (∃ s : State, s.window.state = .quiet ∧ (openFields s.directive.chain).work = [0] ∧ s.sweep.restoreList ≠ [])
    ∧ (∃ s : State, s.window.state = .quiet ∧ (openFields s.directive.chain).work = [0] ∧ s.sweep.job = .none
      ∧ s.sweep.restoreList = [] ∧ s.journal.demand = .owed)
    ∧ (∃ s : State, s.window.state = .quiet ∧ (openFields s.directive.chain).work = [0] ∧ s.sweep.job = .none
      ∧ s.sweep.restoreList = [] ∧ s.journal.demand = .none ∧ s.journal.openBacklog = 1)
    ∧ ∃ s : State, s.window.state = .quiet ∧ (openFields s.directive.chain).work = [0, 511] ∧ s.sweep.job = .none
      ∧ s.sweep.restoreList = [] ∧ s.journal.demand = .none ∧ s.journal.openBacklog = 0
      ∧ (s.circuit 0).state ≠ .empty ∧ (s.circuit 511).state = .empty :=
  ⟨⟨hand (one .quiet settledA) 5 [0x02210007], by decide +kernel⟩,
    ⟨hand (one .quiet settledA) 5 [0x02020007, 0, 0, 0x020001FF], by decide +kernel⟩,
    ⟨hand (one .opened settledA) 5 openWords, by decide +kernel⟩,
    ⟨hand { one .quiet settledA with sweep := { restoreList := [1] } } 5 openWords, by decide +kernel⟩,
    ⟨hand { one .quiet settledA with journal := { demand := .owed } } 5 openWords, by decide +kernel⟩,
    ⟨hand (waits (one .quiet settledA) (record .opened false)) 5 openWords, by decide +kernel⟩,
    ⟨hand (one .quiet settledA) 5 [0x02020007, 0, 0, 0x01FF0000], by decide +kernel⟩⟩

theorem witness_MarkExecuted_answers :
    (∃ s : State, s.window.state ≠ .noLayout ∧ ((chainWord s.directive.chain 0 1).extractLsb' 0 8).toNat = 0)
    ∧ (∃ s : State, s.window.state ≠ .noLayout ∧ ((chainWord s.directive.chain 0 1).extractLsb' 0 8).toNat = 41)
    ∧ (∃ s : State, s.window.state ≠ .noLayout ∧ ((chainWord s.directive.chain 0 1).extractLsb' 0 8).toNat = 2
      ∧ markList s.directive.chain = [511, 512])
    ∧ (∃ s : State, s.window.state = .quiet ∧ ((chainWord s.directive.chain 0 1).extractLsb' 0 8).toNat = 1
      ∧ markList s.directive.chain = [0])
    ∧ ∃ s : State, s.window.state = .opened ∧ ((chainWord s.directive.chain 0 1).extractLsb' 0 8).toNat = 2
      ∧ markList s.directive.chain = [0, 511] ∧ (s.circuit 0).state ≠ .empty ∧ (s.circuit 511).state = .empty :=
  ⟨⟨hand (one .opened settledA) 6 [0], by decide +kernel⟩, ⟨hand (one .opened settledA) 6 [41], by decide +kernel⟩,
    ⟨hand (one .opened settledA) 6 [0x01FF0002, 0x200], by decide +kernel⟩,
    ⟨hand (one .quiet settledA) 6 [1], by decide +kernel⟩,
    ⟨hand (one .opened settledA) 6 [2, 0x1FF], by decide +kernel⟩⟩

/-- Directives in hand in a window state, or with a mode code, that the check refuses, and the answers. -/
theorem witness_RefusedDirectiveChangesNothing_answers :
    refusalOf .accept (hand (up .quiet) 9 [0]) = some ⟨.refusedState, 512⟩
    ∧ refusalOf .recheck (hand (up .opened) 10 []) = some ⟨.refusedState, 512⟩
    ∧ refusalOf .abandon (hand (up .quiet) 8 []) = some ⟨.refusedState, 512⟩
    ∧ refusalOf .setPolicy (hand (up .opened) 2 [3]) = some ⟨.refusedRange, 1⟩
    ∧ refusalOf .setPolicy (hand (up .opened) 2 [2]) = some ⟨.refusedState, 512⟩ := by
  decide +kernel

/-- Layouts that fail check 2 alone, check 9 alone (the landing area in the connection table) and none. -/
theorem witness_LayoutAccepted_answers :
    State.layoutRefusal (hand State.reset 1 (0x04000000 :: 0x00060000 :: layWords.drop 2)) = some ⟨.refusedRange, 2⟩
    ∧ State.layoutRefusal (hand State.reset 1 (0x04000000 :: 0x00060010 :: 0x04000030 :: layWords.drop 3))
      = some ⟨.refusedRange, 9⟩
    ∧ State.layoutRefusal (hand (up .concluded) 1 layWords) = some ⟨.refusedState, 512⟩
    ∧ State.layoutRefusal (hand (one .quiet settledA) 1 layWords) = some ⟨.refusedState, 1⟩
    ∧ State.layoutRefusal (hand (waits (up .quiet) (record .outside false)) 1 layWords) = some ⟨.refusedState, 2⟩
    ∧ State.layoutRefusal (hand { up .quiet with sweep := { driftRequest := true } } 1 layWords)
      = some ⟨.refusedState, 3⟩ := by
  decide +kernel

/-- The part with a LOAD in hand of this circuit on this channel with these entries. -/
def loads (s : State) (circuit channel : Nat) (count : Nat) (first second : Nat) : State :=
  { s with directive := {
      step := .checked
      chain := [[0x3309, BitVec.ofNat 32 (65536 * channel + circuit), 0, 0, 0, 0, BitVec.ofNat 32 (65536 * count),
        BitVec.ofNat 32 (65536 * second + first)], [0x2009, 0, 0, 0, 0, 0, 0, 0]] } }

/-- A LOAD for each answer: a circuit out of range, no entry, an entry out of range, one listed before, a channel out of
range, a window state, a circuit state, an entry of circuit 0, the channel of circuit 0. -/
theorem witness_LoadInQuietStartsCapture_answers :
    (loads (one .quiet settledA) 512 3 2 7 9).loadRefusal = some ⟨.refusedRange, 0⟩
    ∧ (loads (one .quiet settledA) 1 3 0 7 9).loadRefusal = some ⟨.refusedRange, 0⟩
    ∧ (loads (one .quiet settledA) 1 3 2 15 16).loadRefusal = some ⟨.refusedRange, 2⟩
    ∧ (loads (one .quiet settledA) 1 3 2 7 7).loadRefusal = some ⟨.refusedRange, 2⟩
    ∧ (loads (one .quiet settledA) 1 6 2 7 9).loadRefusal = some ⟨.refusedRange, 0⟩
    ∧ (loads (one .settling settledA) 1 3 2 7 9).loadRefusal = some ⟨.refusedState, 512⟩
    ∧ (loads (one .quiet { settledA with state := .restoring }) 0 3 2 7 9).loadRefusal = some ⟨.refusedState, 0⟩
    ∧ (loads (one .quiet settledA) 1 3 2 7 6).loadRefusal = some ⟨.conflict, 0⟩
    ∧ (loads (one .quiet settledA) 1 2 2 7 9).loadRefusal = some ⟨.conflict, 0⟩
    ∧ (loads (one .opened { settledA with state := .held }) 0 2 2 5 9).loadRefusal = none := by
  decide +kernel

theorem witness_DropReleases_answers :
    (hand (one .quiet settledA) 4 [512]).dropRefusal = some ⟨.refusedRange, 0⟩
    ∧ (hand (one .quiet { settledA with state := .loading }) 4 [0]).dropRefusal = some ⟨.refusedState, 0⟩
    ∧ (hand (one .opened settledA) 4 [0]).dropRefusal = some ⟨.refusedState, 0⟩
    ∧ (hand (one .opened { settledA with state := .held }) 4 [0]).dropRefusal = none
    ∧ (hand (one .concluded settledA) 4 [0]).dropRefusal = some ⟨.refusedState, 512⟩ := by
  decide +kernel

theorem witness_RestoreListedOrStarted_answers :
    (hand (one .quiet settledA) 11 [512]).restoreRefusal = some ⟨.refusedRange, 0⟩
    ∧ (hand (one .opened { settledA with state := .drifted }) 11 [0]).restoreRefusal = some ⟨.refusedState, 512⟩
    ∧ (hand (one .quiet settledA) 11 [0]).restoreRefusal = some ⟨.refusedState, 0⟩
    ∧ (hand (one .quiet { settledA with state := .drifted, baseline := none }) 11 [0]).restoreRefusal
      = some ⟨.refusedRange, 1⟩
    ∧ (hand { one .quiet { settledA with state := .drifted } with sweep := { restoreList := [3, 0] } } 11 [0]).restoreRefusal
      = some ⟨.duplicate, 2⟩
    ∧ (hand { one .quiet { settledA with state := .drifted } with
        sweep := { restoreList := [1, 2, 3, 4, 5, 6, 7, 8] } } 11 [0]).restoreRefusal = some ⟨.busy, 0⟩ := by
  decide +kernel

/-- A fetch read of a slot's eighth word in progress, behind these slots of the chain, with these words 0 and 1. -/
def fetchesLast (chain : List (List Word)) (first second : Word) : State :=
  busy { up .quiet with directive := { step := .fetching [first, second, 0, 0, 0, 0, 0], chain } } .directive { addr := 0x1C }

/-- The chains that R155 refuses: a third slot with the continuation mark; a kind code that names no kind; a LOAD of one
slot, an OPEN of one with five circuits, a MARK of one with fourteen; a CLOSE before a layout. -/
theorem witness_FetchReadCompletes_refused :
    (∃ (s : State) (r : Request) (words : List Word), s.inProgress .directive r ∧ s.directive.step = .fetching words
      ∧ words.length = 7 ∧ s.directive.chain.length = 2
      ∧ (chainWord (s.directive.chain ++ [words ++ [0]]) 2 0).getLsbD 12 = true)
    ∧ (∃ (s : State) (r : Request) (words : List Word), s.inProgress .directive r ∧ s.directive.step = .fetching words
      ∧ words.length = 7 ∧ (words.getD 0 0).getLsbD 12 = false ∧ chainKind (s.directive.chain ++ [words ++ [0]]) = none)
    ∧ (∀ k : DirectiveKind, k = .load ∨ k = .openWindow ∨ k = .mark →
      ∃ (s : State) (r : Request) (words : List Word), s.inProgress .directive r ∧ s.directive.step = .fetching words
        ∧ words.length = 7 ∧ (words.getD 0 0).getLsbD 12 = false
        ∧ chainKind (s.directive.chain ++ [words ++ [0]]) = some k
        ∧ (k = .openWindow → (chainWord (s.directive.chain ++ [words ++ [0]]) 0 1).extractLsb' 16 8 = 5)
        ∧ (k = .mark → (chainWord (s.directive.chain ++ [words ++ [0]]) 0 1).extractLsb' 0 8 = 14))
    ∧ ∃ (s : State) (r : Request) (words : List Word), s.inProgress .directive r ∧ s.directive.step = .fetching words
      ∧ words.length = 7 ∧ (words.getD 0 0).getLsbD 12 = false ∧ s.layout = none
      ∧ chainKind (s.directive.chain ++ [words ++ [0]]) = some .close := by
  refine ⟨⟨fetchesLast [[0x3509], [0x3009]] 0x3009 0, _, _, ⟨rfl, _, rfl⟩, rfl, rfl, rfl, by decide +kernel⟩,
    ⟨fetchesLast [] 0x2009 0, _, _, ⟨rfl, _, rfl⟩, rfl, rfl, by decide, by decide +kernel⟩, ?_,
    ⟨{ fetchesLast [] 0x2709 0 with layout := none }, _, _, ⟨rfl, _, rfl⟩, rfl, rfl, by decide, rfl, by decide +kernel⟩⟩
  rintro k (rfl | rfl | rfl)
  · exact ⟨fetchesLast [] 0x2309 0, _, _, ⟨rfl, _, rfl⟩, rfl, rfl, by decide, by decide +kernel, nofun, nofun⟩
  · exact ⟨fetchesLast [] 0x2509 0x00050000, _, _, ⟨rfl, _, rfl⟩, rfl, rfl, by decide, by decide +kernel,
      fun _ => by decide +kernel, nofun⟩
  · exact ⟨fetchesLast [] 0x2609 14, _, _, ⟨rfl, _, rfl⟩, rfl, rfl, by decide, by decide +kernel, nofun,
      fun _ => by decide +kernel⟩

theorem witness_CompletionWriteEnds_failure :
    ∃ (i : Instr) (s : State) (r : Request) (left : List (Nat × Word)), failsAccess i ∧ s.inProgress .directive r
      ∧ s.directive.step = .completing ((63, 0) :: left) 1 ∧ r.retry = true ∧ r.stale = false :=
  ⟨.downstreamTimeout, busy { up .quiet with directive := { nextSlot := 63, step := .completing [(63, 0)] 1 } } .directive
    { addr := 0x7E0, retry := true }, _, _, .inl rfl, ⟨rfl, _, rfl⟩, rfl, rfl, rfl⟩

/-- With no window circuit the close sweep of an overrun window ends at a circuit outside it. -/
theorem witness_CloseSweepEndEntersVerifying_none :
    ∃ (s : State) (r : Request) (set : List Nat) (c p : Nat) (words : List Word) (data : Word), s.inProgress .sweep r
      ∧ r.stale = false ∧ s.sweep.job = .closeSweep set c p words ∧ c < 512 ∧ s.window.state = .sweeping
      ∧ (s.circuit c).entries.length ≤ p ∧ (set.find? fun k => decide (c < k)) = none
      ∧ (∀ k, k < 512 → (s.circuit k).state.inWindow = false)
      ∧ (s.circuit c).baseline = some (words ++ [data]) :=
  ⟨sweeps .sweeping settledA (.closeSweep [0] 0 2 [7]) false, _, _, 0, 2, _, 8, sweeps_inProgress _ _ _ _, rfl, rfl,
    by decide, rfl, by decide, rfl, by decide +kernel, rfl⟩

theorem witness_CloseSweepEndEntersVerifying_channels :
    ∃ (s : State) (ch k : Nat), s.channelsAgree ∧ k < 512 ∧ s.boundTo ch = some k
      ∧ (s.circuit k).state.inWindow = true ∧ (s.circuit k).isUnreadable = true ∧ s.window.state = .sweeping :=
  ⟨one .sweeping { settledA with state := .broken, cause := some .unreadable }, 2, 0, one_channelsAgree _ _ rfl, by decide,
    rfl, rfl, rfl, rfl⟩

/-- The last read of the one SETTLED circuit ends the sweep, with this demand and this many records in the journal. -/
theorem witness_DriftSweepReadCompared_ends (demand : Demand) (n : Nat) :
    ∃ (s : State) (r : Request) (c p : Nat) (base : List Word), s.inProgress .sweep r ∧ r.stale = false
      ∧ s.arbiter.sweep = none ∧ s.sweep.job = .driftSweep c p ∧ (s.circuit c).baseline = some base
      ∧ (s.circuit c).entries.length ≤ p ∧ (∀ k, c < k → k < 512 → (s.circuit k).state ≠ .settled)
      ∧ s.sweep.captureRequest = none ∧ s.sweep.restoreList = [] ∧ s.sweep.driftRequest = false
      ∧ s.journal.demand = demand ∧ s.window.state = .quiet ∧ s.journal.occupancy = n :=
  ⟨{ sweeps .quiet settledA (.driftSweep 0 2) false with
      journal := { demand, waiting := List.replicate n (record .outside false) } }, _, 0, 2, _, ⟨rfl, _, rfl⟩, rfl,
    rfl, rfl, rfl, Nat.le_refl 2, fun k h _ => by
      have : ({ sweeps .quiet settledA (.driftSweep 0 2) false with
        journal := { demand, waiting := List.replicate n (record .outside false) } } : State).circuit k = {} :=
        if_neg (by omega)
      rw [this]; decide, rfl, rfl, rfl, rfl, rfl, by simp [Journal.occupancy]⟩

/-- The second failure of a drift sweep read that differs from its baseline word. -/
theorem witness_DriftSweepReadCompared_failure :
    ∃ (i : Instr) (s : State) (r : Request) (c p : Nat) (base : List Word) (data : Word), failsAccess i
      ∧ s.inProgress .sweep r ∧ r.stale = false ∧ r.retry = true ∧ s.arbiter.sweep = none ∧ s.sweep.job = .driftSweep c p
      ∧ (s.circuit c).baseline = some base ∧ base.getD (p - 1) 0 ≠ data :=
  ⟨.downstreamTimeout, sweeps .quiet settledA (.driftSweep 0 1) true, _, 0, 1, _, 9, .inl rfl, sweeps_inProgress _ _ _ _,
    rfl, rfl, rfl, rfl, rfl, by decide⟩

theorem witness_ReportWordCompletes_failure (item : RecordItem) (overtaken : Bool) :
    ∃ (i : Instr) (s : State) (r : Request) (base : Nat) (done : Nat × Word) (left : List (Nat × Word)), failsAccess i
      ∧ s.inProgress .report r ∧ s.report.writer = .writing item base (done :: left) overtaken ∧ r.retry = true
      ∧ r.stale = false :=
  ⟨.downstreamErrorCompletion, busy { up .quiet with report := { writer := .writing item 0 [(3, 0)] overtaken } } .report
    { addr := 12, retry := true }, _, 0, _, _, .inr rfl, ⟨rfl, _, rfl⟩, rfl, rfl, rfl⟩

/-- A rewrite that is due, one with each condition missing, and the second failure of a word. -/
theorem witness_SummaryRewritten_due :
    (∃ (s : State) (l : Layout), s.layout = some l ∧ s.report.summary = .idle ∧ s.report.wanted = true
      ∧ s.report.writer.isWriting = false)
    ∧ (∃ s : State, s.layout ≠ none ∧ s.report.summary = .holdOff 0 ∧ s.report.wanted = true)
    ∧ (∃ s : State, s.layout ≠ none ∧ s.report.summary = .idle ∧ s.report.wanted = true
      ∧ s.report.writer.isWriting = true)
    ∧ ∃ (i : Instr) (s : State) (r : Request) (base k : Nat) (w : Word) (left : List (Nat × Word)) (snapshot : BitVec 9),
      failsAccess i ∧ s.inProgress .report r ∧ s.report.summary = .writing base ((k, w) :: left) snapshot
      ∧ r.retry = true ∧ r.stale = false ∧ s.report.writer.isWriting = false :=
  ⟨⟨{ up .quiet with report := { wanted := true, writer := .holdOff 0 } }, lay, rfl, rfl, rfl, rfl⟩,
    ⟨{ up .quiet with report := { wanted := true, summary := .holdOff 0 } }, nofun, rfl, rfl⟩,
    ⟨{ up .quiet with report := { wanted := true, writer := .writing .window 0 [(3, 0)] true } }, nofun, rfl, rfl, rfl⟩,
    ⟨.downstreamTimeout, busy { up .quiet with report := { summary := .writing 0 [(15, 7)] 7 } } .report
      { addr := 60, retry := true }, _, 0, _, _, _, _, .inl rfl, ⟨rfl, _, rfl⟩, rfl, rfl, rfl, rfl⟩⟩

/-! ### A rewrite that becomes due, and a request held back -/

/-- R168: with the summary wanted and the report writer free, the end of HOLD_OFF starts the rewrite in the same
event. -/
theorem test_summaryHoldOffExpiry_starts_due_rewrite :
    gives (exec .summaryHoldOffExpiry { up .quiet with report := { summary := .holdOff 0, wanted := true } })
      (fun t => decide (t.report.generation = 1) && !t.report.wanted && t.report.summary.isWriting) = true := by
  decide +kernel

/-- R120: the request a full buffer held back is made of its own entry, index 6, after the circuit has gone. -/
theorem test_held_request_keeps_its_entry :
    gives (exec .forwardedWriteComplete (busy { up .quiet with
        pass := { buffer := some posted }, sweep := { job := .driftSweep 0 2, held := some (0x04000018, none) } } .passPath
        { addr := 0x04000014 })) (fun t =>
      decide (t.arbiter.sweep = some { addr := 0x04000018 }) && decide (t.sweep.held = none)) = true := by
  decide +kernel

/-! ### Address classes, the bits of a directive's fields, and the smoothing that rises -/

/-- R27, at the first and last octet of each region of `lay`, and beside them. -/
theorem witness_AccessWaitsOrEndsLate_classes :
    (up .quiet).addrClass 0 = .directive 0 0 ∧ (up .quiet).addrClass 0x7FF = .directive 63 7
    ∧ (up .quiet).addrClass 0x800 = .other
    ∧ (up .quiet).addrClass 0x03FFFFFF = .other ∧ (up .quiet).addrClass 0x04000000 = .connection 0
    ∧ (up .quiet).addrClass 0x0400003F = .connection 15 ∧ (up .quiet).addrClass 0x04000040 = .other
    ∧ (up .quiet).addrClass 0x05000000 = .landing 0 0 ∧ (up .quiet).addrClass 0x0500005F = .landing 5 3
    ∧ (up .quiet).addrClass 0x05000060 = .other
    ∧ (up .quiet).addrClass 0x06000008 = .attentionWord ∧ (up .quiet).addrClass 0x06000034 = .consumerWord
    ∧ (up .quiet).addrClass 0x06000038 = .other
    ∧ State.reset.addrClass 0x7FF = .directive 63 7 ∧ State.reset.addrClass 0x04000000 = .other := by
  decide +kernel

/-- R172: the last position of a full work list of an OPEN and of a full list of a MARK, and the first ones of the
continuation slots. -/
theorem witness_OpenExecuted_MarkExecuted_bits :
    (∃ chain : List (List Word), (openFields chain).workCount = 32 ∧ (openFields chain).work.getD 4 0 = 3
      ∧ (openFields chain).work.getD 18 0 = 5 ∧ (openFields chain).work.getD 31 0 = 9)
    ∧ ∃ chain : List (List Word), ((chainWord chain 0 1).extractLsb' 0 8).toNat = 40
      ∧ (markList chain).getD 0 0 = 2 ∧ (markList chain).getD 13 0 = 4 ∧ (markList chain).getD 39 0 = 8 :=
  ⟨⟨[[0x3509, 0x00200000], [0x3009, 3], [0x2009, 5, 0, 0, 0, 0, 0, 0x00090000]], by decide +kernel⟩,
    ⟨[[0x3609, 0x00020028], [0x3009, 4], [0x2009, 0, 0, 0, 0, 0, 0, 8]], by decide +kernel⟩⟩

theorem witness_SmoothingProperties_rises :
    ∃ (k : Nat) (old r : Int), k ≤ 4 ∧ -5000 ≤ old ∧ old ≤ 1000 ∧ -5000 ≤ r ∧ r ≤ 1000 ∧ 1 ≤ k
      ∧ 2 ^ k ≤ r - old ∧ r - old ≤ 2 ^ k :=
  ⟨4, -5000, -4984, by decide⟩

/-! ### A completing write in the Directive Unit's resting steps -/

/-- A read and a write that wait, the Directive Unit IDLE with no mark of its slot. -/
theorem witness_ForwardedWriteCompletes_resting :
    ∀ op ∈ [AccessOp.read, .write 1 0x8],
      let a := { waitingWrite with op }
      let s := { awaits a with directive := {} }
      (s.arbiter.port.map Grant.who) = some .passPath ∧ s.pass.buffer = some posted ∧ s.directive.step = .idle
        ∧ posted.cls ≠ .directive 0 0 ∧ s.directive.ready = [] ∧ s.sweep.held = none ∧ s.pass.step = .drainWait a
        ∧ s.isLate a.master = false ∧ a.addr = 4 * (0x0100000F : WordAddr).toNat ∧ a.cls = s.addrClass a.addr
        ∧ s.pass.answer = none := by
  decide +kernel

/-- A late master's access that waits behind the mark the unit waits for, and a held request in CHAIN_WAIT. -/
theorem witness_ForwardedWriteCompletes_resting_late :
    (∃ (s : State) (r : Request) (p : Posted) (a : Access), s.inProgress .passPath r ∧ s.pass.buffer = some p
      ∧ s.directive.step = .idle ∧ p.cls = .directive 3 0 ∧ s.directive.nextSlot = 3 ∧ s.sweep.held = none
      ∧ s.pass.step = .drainWait a ∧ s.isLate a.master = true)
    ∧ ∃ (s : State) (r : Request) (p : Posted), s.inProgress .passPath r ∧ s.pass.buffer = some p
      ∧ s.directive.step = .chainWait ∧ s.directive.ready = [] ∧ s.sweep.held = some (0x04000018, none)
      ∧ s.arbiter.sweep = none ∧ s.pass.step = .idle :=
  ⟨⟨busy { up .quiet with
        pass := { buffer := some readyWrite, step := .drainWait closingAccess, lateMarks := [(3, true)] }
        directive := { nextSlot := 3 } } .passPath { addr := 0x60 }, _, readyWrite, _, ⟨rfl, _, rfl⟩, rfl, rfl, rfl, rfl, rfl, rfl,
      rfl⟩,
    ⟨busy { up .quiet with
        pass := { buffer := some posted }, sweep := { held := some (0x04000018, none) }
        directive := { step := .chainWait, chain := [[0x3309]] } } .passPath { addr := 0x04000014 }, _, _, ⟨rfl, _, rfl⟩, rfl,
      rfl, rfl, rfl, rfl, rfl⟩⟩

/-! ### The drift-sweep demand at the end of a window -/

/-- This many records wait in the journal, and its OVERRUN flag is set, with this demand. -/
def overruns (s : State) (demand : Demand) (n : Nat) : State :=
  { s with journal := { overrun := some .closed, demand, waiting := List.replicate n (record .outside false) } }

/-- An ABANDON of a window in OPEN, or in SWEEPING with its close sweep, after which the circuit is SETTLED or DRIFTED;
nothing owed or a drift sweep owed; 191 records, which let one start, or 192. -/
theorem witness_AbandonExecuted_demand :
    ∀ d ∈ [Demand.none, .owed], ∀ n ∈ [191, 192], ∀ o ∈ [OutsideState.settled, .drifted],
    ∀ x ∈ [(WindowState.opened, CircuitState.held, Job.none), (.sweeping, .pending, .closeSweep [0] 0 1 [])],
      let r : Circuit := { settledA with state := x.2.1, prior := some o }
      let s := hand (overruns { one x.1 r with sweep := { job := x.2.2 } } d n) 8 []
      s.inHand .abandon ∧ s.abandonRefusal = none ∧ s.sweep.restoreList = [] ∧ s.sweep.captureRequest = none
        ∧ s.sweep.driftRequest = false ∧ (s.sweep.job = .none ∨ s.sweep.job.isCloseSweep = true)
        ∧ s.journal.demand = d ∧ s.journal.overrun.isSome = true ∧ s.journal.occupancy = n ∧ s.pass.buffer = none
        ∧ gives (exec .abandon s) (fun t => decide ((t.circuit 0).state = o.toState)) = true := by
  unfold State.inHand; decide +kernel

/-- An ACCEPT, after which the circuit is SETTLED or FAULTED. -/
theorem witness_AcceptExecuted_demand :
    ∀ d ∈ [Demand.none, .owed], ∀ n ∈ [191, 192],
    ∀ x ∈ [(CircuitState.confirmed, CircuitState.settled), (.silent, .faulted)],
      let s := hand (overruns (one .concluded { settledA with state := x.1, swept := some [7, 8] }) d n) 9 [0]
      s.inHand .accept ∧ s.window.state = .concluded ∧ s.sweep.restoreList = [] ∧ s.sweep.captureRequest = none
        ∧ s.sweep.driftRequest = false ∧ s.sweep.job = .none ∧ s.journal.demand = d ∧ s.journal.occupancy = n
        ∧ gives (exec .accept s) (fun t => decide ((t.circuit 0).state = x.2)) = true := by
  unfold State.inHand; decide +kernel

/-- A CHANGE record's release that leaves this many records in QUIET, a drift sweep owed, with this job and this
circuit. -/
def releases (r : Circuit) (j : Job) (n : Nat) : State :=
  busy { one .quiet r with
    sweep := { job := j }
    journal := {
      judged := [⟨record .opened true, .fenced, none⟩], waiting := List.replicate n (record .outside false)
      demand := .owed, overrun := some .outside }
    report := { writer := .writing .change 0 [(3, 0)] false } } .report { addr := 12 }

/-- A job running; the engine idle with circuit 0 SETTLED, and with none; and 192 records left, which are too many. -/
theorem witness_ReportWordCompletes_due :
    ∀ x ∈ [(settledA, Job.driftSweep 0 1, 191), (settledA, .none, 191), ({ settledA with state := .drifted }, .none, 191),
        (settledA, .none, 192)],
      let s := releases x.1 x.2.1 x.2.2
      s.report.writer = .writing .change 0 [(3, 0)] false ∧ s.journal.demand = .owed ∧ s.window.state = .quiet
        ∧ s.journal.judged.tail.length + s.journal.waiting.length = x.2.2 ∧ s.sweep.captureRequest = none
        ∧ s.sweep.restoreList = [] ∧ s.pass.buffer = none ∧ s.arbiter.sweep = none
        ∧ (∀ k, k < 512 → ((s.circuit k).state = .settled ↔ k = 0 ∧ x.1.state = .settled)) := by
  decide +kernel

theorem releases_inProgress (r : Circuit) (j : Job) (n : Nat) :
    (releases r j n).inProgress .report { addr := 12 } := ⟨rfl, 0, rfl⟩

/-! ### The request that R120 holds back, and the ends of a sweep -/

/-- A write to this address in the posted-write buffer. -/
def behind (s : State) (addr : Nat) : State := { s with pass := { buffer := some { posted with addr } } }

/-- With the first of two entries done, the next request is of word 6: the buffered write is to it, or to word 7. -/
theorem witness_NextRequest_held :
    ∀ j ∈ [Job.capture 0 1, .closeSweep [0] 0 1 [], .driftSweep 0 1, .restore 0 1 .faulted],
    ∀ addr ∈ [0x04000018, 0x0400001C],
      let s := behind (sweeps .quiet settledA j false) addr
      s.sweep.job = j ∧ s.arbiter.sweep = none ∧ 1 < (s.circuit 0).entries.length
        ∧ (s.pass.buffer.any fun b => decide (b.addr = s.connAddr ((s.circuit 0).entries.getD 1 0)))
          = decide (addr = 0x04000018) := by
  decide +kernel

/-- The first request of a capture is of word 7, of a restore of word 5: the buffered write is to it, or to word 9. -/
theorem witness_FirstRequest_held :
    (∀ addr ∈ [0x0400001C, 0x04000024],
      let s := behind { up .quiet with directive := { step := .checked, chain := loadChain } } addr
      s.inHand .load ∧ s.loadRefusal = none ∧ s.window.state = .quiet ∧ s.sweep.job = .none ∧ s.arbiter.sweep = none
        ∧ s.arbiter.port = none
        ∧ (s.pass.buffer.any fun b => decide (b.addr = s.connAddr (s.loadInHand.entries.getD 0 0)))
          = decide (addr = 0x0400001C))
    ∧ ∀ addr ∈ [0x04000014, 0x04000024],
      let s := behind (hand (one .quiet { settledA with state := .faulted }) 11 [0]) addr
      s.inHand .restore ∧ s.restoreRefusal = none ∧ s.sweep.job = .none ∧ s.sweep.restoreList = []
        ∧ s.sweep.captureRequest = none ∧ s.sweep.driftRequest = false ∧ s.arbiter.sweep = none ∧ s.arbiter.port = none
        ∧ (s.pass.buffer.any fun b => decide (b.addr = s.connAddr ((s.circuit 0).entries.getD 0 0)))
          = decide (addr = 0x04000014) := by
  unfold State.inHand; decide +kernel

/-- The read of a sweep that an ABANDON stopped, its first or its second try, with no request held for its sake, or one
held and the buffer empty or with a write to another word. -/
theorem witness_CloseSweepReads_stale (retry : Bool) :
    (∃ (s : State) (r : Request), s.inProgress .sweep r ∧ r.stale = true ∧ r.retry = retry ∧ s.sweep.held = none)
    ∧ ∀ b : Option Posted, b = none ∨ b = some posted →
      ∃ (s : State) (r : Request), s.inProgress .sweep r ∧ r.stale = true ∧ r.retry = retry
        ∧ s.sweep.held = some (0x04000018, none) ∧ s.arbiter.sweep = none ∧ s.pass.buffer = b
        ∧ ∀ p, s.pass.buffer = some p → p.addr ≠ 0x04000018 := by
  refine ⟨⟨busy (up .quiet) .sweep { addr := 0x04000014, retry, stale := true }, _, ⟨rfl, _, rfl⟩, rfl, rfl, rfl⟩,
    fun b hb => ⟨busy { up .quiet with pass := { buffer := b }, sweep := { job := .driftSweep 0 2, held := some (0x04000018, none) } }
      .sweep { addr := 0x04000014, retry, stale := true }, _, ⟨rfl, _, rfl⟩, rfl, rfl, rfl, rfl, rfl, fun p hp => ?_⟩⟩
  obtain rfl | rfl := hb
  · cases hp
  · cases hp; decide

/-- The last read of a close sweep, or its second try, whose last circuit is 0 in this state, with circuit 1 in this one. -/
def sweepsLast (first second : CircuitState) (retry : Bool) : State :=
  busy { up .sweeping with
    store := { circuits := [(0, { settledA with state := first }), (1, { state := second })] }
    sweep := { job := .closeSweep [0] 0 2 [7] } } .sweep { addr := 0x04000018, retry }

/-- A last circuit inside the window or outside it, found CHANGED by the word 9 and not by 8, with another window circuit
and without. -/
theorem witness_CloseSweepEndEntersVerifying_outside :
    ∀ x ∈ [CircuitState.pending, .settled, .drifted, .faulted], ∀ y ∈ [CircuitState.pending, .settled],
    ∀ retry ∈ [false, true],
      let s := sweepsLast x y retry
      (s.arbiter.port.map fun g => g.request.retry) = some retry ∧ s.sweep.job = .closeSweep [0] 0 2 [7]
        ∧ s.window.state = .sweeping ∧ (s.circuit 0).entries.length = 2 ∧ (s.circuit 0).state = x
        ∧ (s.circuit 1).state = y ∧ (s.circuit 0).baseline = some ([7] ++ [8])
        ∧ (s.circuit 0).baseline ≠ some ([7] ++ [9]) := by
  decide +kernel

/-- The end of a restore of circuit 0, circuit 1 SETTLED and circuit 2 DRIFTED, with a capture and a drift sweep waiting
and circuit 2 listed, then with the first of these gone, one by one. -/
theorem witness_RestoreWritesAndEnds_waiting (retry : Bool) :
    ∀ x ∈ [(some 3, true, [2]), (none, true, [2]), (none, false, [2]), (none, false, [])],
      let s : State := { sweeps .quiet { settledA with state := .restoring } (.restore 0 2 .faulted) retry with
        store := { circuits := [(0, { settledA with state := .restoring }), (1, settledA), (2, { settledA with state := .drifted })] }
        sweep := { job := .restore 0 2 .faulted, captureRequest := x.1, driftRequest := x.2.1, restoreList := x.2.2 }
        journal := { demand := .owed, overrun := some .outside } }
      (s.arbiter.port.map fun g => (g.who, g.request.retry)) = some (.sweep, retry) ∧ s.arbiter.sweep = none
        ∧ s.sweep.job = .restore 0 2 .faulted ∧ (s.circuit 0).entries.length ≤ 2
        ∧ s.sweep.captureRequest = x.1 ∧ s.sweep.driftRequest = x.2.1 ∧ s.sweep.restoreList = x.2.2
        ∧ gives (exec (if retry then .downstreamTimeout else .restoreWriteComplete) s) (fun t =>
          decide ((t.circuit 1).state = .settled) && decide ((t.circuit 0).state = if retry then .faulted else .settled))
          = true := by
  cases retry <;> decide +kernel

/-- The last read of a capture, or its second failure, with circuit 1 SETTLED and circuit 2 DRIFTED, and the same jobs
waiting; with no circuit SETTLED the drift sweep ends as it starts. -/
theorem witness_CaptureReads_waiting (retry : Bool) :
    ∀ x ∈ [(some 3, true, [2]), (none, true, [2]), (none, false, [2]), (none, false, [])],
    ∀ st ∈ [CircuitState.settled, .faulted],
      let s : State := { sweeps .quiet { settledA with state := .loading, suspect := true } (.capture 0 2) retry with
        store := {
          circuits := [(0, { settledA with state := .loading, suspect := true }), (1, { settledA with state := st }),
            (2, { settledA with state := .drifted })] }
        sweep := { job := .capture 0 2, captureRequest := x.1, driftRequest := x.2.1, restoreList := x.2.2 }
        journal := { demand := .owed, overrun := some .outside } }
      (s.arbiter.port.map fun g => (g.who, g.request.retry)) = some (.sweep, retry) ∧ s.arbiter.sweep = none
        ∧ s.sweep.job = .capture 0 2 ∧ (s.circuit 0).entries.length ≤ 2 ∧ (s.circuit 0).state = .loading
        ∧ s.sweep.captureRequest = x.1 ∧ s.sweep.driftRequest = x.2.1 ∧ s.sweep.restoreList = x.2.2
        ∧ s.journal.demand = .owed
        ∧ gives (exec (if retry then .downstreamTimeout else .captureReadComplete 8) s) (fun t =>
          decide ((t.circuit 1).state = st) && decide ((t.circuit 0).state = if retry then .empty else .drifted)
            && t.circuitsWhere (fun r => r.state = .settled) == if st = .settled then [1] else []) = true := by
  cases retry <;> decide +kernel

/-- A drift sweep's read of circuit 0, or its second try: SETTLED, released by a DROP, LOADING by a LOAD, or DRIFTED by a
classified write. Circuit 1 is SETTLED, so that the sweep goes on with it, or FAULTED, so that the sweep ends with a
capture, a drift sweep or a restore waiting, or none. -/
def sweepsDrift (x : Circuit) (st : CircuitState) (retry : Bool) (q : Option Nat × Bool × List Nat) (demand : Demand) :
    State :=
  busy { up .quiet with
    store := {
      circuits := [(0, x), (1, { settledA with state := st, entries := [8, 9] }), (2, { settledA with state := .drifted })] }
    sweep := { job := .driftSweep 0 2, captureRequest := q.1, driftRequest := q.2.1, restoreList := q.2.2 }
    journal := { demand, overrun := some .outside } } .sweep { addr := 0x04000018, retry }

theorem sweepsDrift_inProgress (x : Circuit) (st : CircuitState) (retry : Bool) (q : Option Nat × Bool × List Nat)
    (d : Demand) : (sweepsDrift x st retry q d).inProgress .sweep { addr := 0x04000018, retry } := ⟨rfl, 0, rfl⟩

theorem witness_DriftSweepReadCompared_left :
    ∀ x ∈ [{ fenceHits := 3 }, { settledA with state := .loading, baseline := none }, { settledA with state := .drifted },
      settledA], ∀ st ∈ [CircuitState.settled, .faulted], ∀ retry ∈ [false, true],
    ∀ q ∈ [(some 3, false, [2]), (none, true, [2]), (none, false, [2]), (none, false, [])],
    ∀ d ∈ [Demand.running, .runningAndOwed],
      let s := sweepsDrift x st retry q d
      s.arbiter.sweep = none ∧ s.sweep.job = .driftSweep 0 2 ∧ s.circuit 0 = x ∧ x.entries.length ≤ 2
        ∧ (s.circuit 1).state = st ∧ s.sweep.captureRequest = q.1 ∧ s.sweep.driftRequest = q.2.1
        ∧ s.sweep.restoreList = q.2.2 ∧ s.window.state = .quiet ∧ s.journal.demand = d ∧ s.journal.occupancy < 192 := by
  decide +kernel

/-- R127: a waiting capture goes ahead of the drift sweep that is owed when the running one ends. -/
theorem test_driftSweepReadComplete_capture_first :
    gives (exec (.driftSweepReadComplete 8) (sweepsDrift settledA .faulted false (some 3, false, [2]) .runningAndOwed))
      (fun t => decide (t.sweep.job = .capture 3 1) && t.sweep.driftRequest && decide (t.sweep.restoreList = [2])
        && decide (t.journal.demand = .owed)) = true := by
  decide +kernel

/-- The first read of the next circuit, of word 8: the buffered write is to it, or to word 9. -/
theorem witness_FirstRead_held :
    ∀ j ∈ [Job.closeSweep [0, 1] 0 2 [7], .driftSweep 0 2], ∀ retry ∈ [false, true], ∀ addr ∈ [0x04000020, 0x04000024],
      let s := behind { sweepsDrift settledA .settled retry (none, false, []) .running with sweep := { job := j } } addr
      s.sweep.job = j ∧ s.arbiter.sweep = none ∧ (s.circuit 0).entries.length ≤ 2 ∧ (s.circuit 1).state = .settled
        ∧ (s.pass.buffer.any fun b => decide (b.addr = s.connAddr ((s.circuit 1).entries.getD 0 0)))
          = decide (addr = 0x04000020) := by
  decide +kernel

/-- The settle expiry, and the record that empties the backlog, with a write to the first word of the set, or to another,
in the buffer. -/
theorem witness_SettleExpiryStartsSweep_held :
    ∀ addr ∈ [0x04000014, 0x04000024],
      let r : Circuit := { settledA with state := .pending }
      let s := behind { one .settling r with window := { state := .settling, settle := .running 0 } } addr
      let u := behind (backlogged (one .settling r) []) addr
      s.window.settle = .running 0 ∧ s.journal.openBacklog = 0 ∧ s.windowCircuits = [0] ∧ s.arbiter.sweep = none
        ∧ s.arbiter.port = none ∧ u.window.settle = .expired ∧ u.journal.waiting = [record .opened true]
        ∧ u.windowCircuits = [0] ∧ u.arbiter.sweep = none ∧ u.arbiter.port = none
        ∧ (s.pass.buffer.any fun b => decide (b.addr = s.connAddr ((s.circuit 0).entries.getD 0 0)))
          = decide (addr = 0x04000014) := by
  decide +kernel

/-- A drift sweep that becomes due at an ABANDON, an ACCEPT or a release, with a write to the first word in the buffer. -/
theorem witness_FirstRead_held_due :
    let pended : Circuit := { settledA with state := .pending, prior := some .settled }
    let s := behind (hand (overruns { one .sweeping pended with sweep := { job := .closeSweep [0] 0 1 [] } } .owed 0) 8 [])
      0x04000014
    let u := behind (hand (overruns (one .concluded { settledA with state := .confirmed, swept := some [7, 8] }) .owed 0) 9
      [0]) 0x04000014
    let v := behind (releases settledA .none 191) 0x04000014
    s.inHand .abandon ∧ u.inHand .accept ∧ v.journal.demand = .owed
      ∧ gives (exec .abandon s) (fun t => decide (t.sweep.held = some (0x04000014, none))) = true
      ∧ gives (exec .accept u) (fun t => decide (t.sweep.held = some (0x04000014, none))) = true
      ∧ gives (exec .reportWordComplete v) (fun t => decide (t.sweep.held = some (0x04000014, none))) = true := by
  unfold State.inHand; decide +kernel

/-! ### A held request and a waiting access, both let go by the buffer's emptying -/

/-- This access waits, from master 7 if it is late, while the Sweep Engine holds this request. -/
def awaitsHeld (a : Access) (held : Nat × Option Word) : State :=
  busy { one .quiet settledA with
    pass := { buffer := some posted, step := .drainWait a, lateMarks := [(7, true)] }
    sweep := { job := .driftSweep 0 2, held := some held } } .passPath { addr := 0x04000014 }

/-- A read, a late master's access, one of the posted write's own master and a write to the very word of the held request
wait while the Sweep Engine holds a request. -/
theorem witness_ForwardedWriteCompletes_both :
    ∀ x ∈ [({ waitingWrite with op := .read }, 0x0100000F), ({ waitingWrite with master := 7 }, 0x0100000F),
      ({ waitingWrite with master := 1 }, 0x0100000F),
      ({ waitingWrite with addr := 0x04000018, cls := .connection 6 }, (0x01000006 : WordAddr))],
    ∀ held ∈ [(0x04000018, none), (0x04000018, some 8)],
      let s := awaitsHeld x.1 held
      (s.arbiter.port.map Grant.who) = some .passPath ∧ s.pass.buffer = some posted ∧ s.pass.step = .drainWait x.1
        ∧ s.sweep.held = some held ∧ s.arbiter.sweep = none
        ∧ s.isLate x.1.master = decide (x.1.master = 7)
        ∧ x.1.addr = 4 * x.2.toNat ∧ x.1.cls = s.addrClass x.1.addr ∧ s.pass.answer = none := by
  decide +kernel

/-- R30, R120 and log entry 11: the request held for word 6 is made, and the write to word 6 that waited enters the
buffer behind it. -/
theorem test_forwardedWriteComplete_lets_both_go :
    gives (exec .forwardedWriteComplete { awaits { waitingWrite with addr := 0x04000018, cls := .connection 6 } with
        sweep := { job := .driftSweep 0 2, held := some (0x04000018, none) } }) (fun t =>
      decide (t.arbiter.sweep = some { addr := 0x04000018 }) && decide (t.sweep.held = none)
        && decide (t.pass.buffer.map Posted.addr = some 0x04000018) && decide (t.pass.step = .idle)) = true := by
  decide +kernel

/-! ### A mark that already stands, an empty RECHECK, and an ABANDON with the sweep's read granted -/

/-- R152, R153: the stale first slot 63 marked again. R154: the second slot of a LOAD read, or the first one, with the
next slot marked; the slots wrap. -/
theorem witness_FetchReadCompletes_marked :
    (∃ (s : State) (r : Request), s.inProgress .directive r ∧ s.directive.step = .fetching []
      ∧ (s.directive.nextSlot + s.directive.chain.length) % 64 = 63 ∧ Table.get false s.directive.ready 63 = true)
    ∧ ∀ chain ∈ [([] : List (List Word)), [[0x3509, 0, 0, 0, 0, 0, 0, 0]]],
      ∃ (s : State) (r : Request) (words : List Word), s.inProgress .directive r ∧ s.directive.step = .fetching words
        ∧ words.length = 7 ∧ (words.getD 0 0).getLsbD 12 = true ∧ s.directive.chain = chain
        ∧ s.directive.chain.length < 2
        ∧ Table.get false s.directive.ready ((s.directive.nextSlot + s.directive.chain.length + 1) % 64) = true := by
  refine ⟨⟨busy { up .quiet with directive := { nextSlot := 63, step := .fetching [], ready := [(63, true)] } } .directive
    { addr := 0x7E0 }, _, ⟨rfl, _, rfl⟩, rfl, rfl, rfl⟩, fun chain h => ⟨busy { up .quiet with directive := {
      nextSlot := 63, step := .fetching [0x3309, 0, 0, 0, 0, 0, 0], chain, ready := [(0, true), (1, true)] } } .directive
    { addr := 0x7FC }, _, _, ⟨rfl, _, rfl⟩, rfl, rfl, by decide, rfl, ?_⟩⟩
  revert chain; decide

/-- R152: the LOAD's second slot, marked before its first slot's ready mark was written, is fetched at once. -/
theorem test_directiveFetchReadComplete_takes_standing_mark :
    gives (exec (.directiveFetchReadComplete 0) (busy { up .quiet with directive := {
        nextSlot := 63, step := .fetching [0x3309, 0, 0, 0, 0, 0, 0], ready := [(0, true), (1, true)] } } .directive
        { addr := 0x7FC })) (fun t =>
      decide (t.directive.step = .fetching []) && decide (Table.marked t.directive.ready = [1])
        && decide (t.arbiter.directive = some { addr := 0 })) = true := by
  decide +kernel

theorem witness_RecheckExecuted_none :
    ∃ s : State, s.inHand .recheck ∧ s.window.state = .concluded
      ∧ ∀ c, c < 512 → (s.circuit c).state.inWindow = false :=
  ⟨hand (one .concluded settledA) 10 [], ⟨rfl, rfl, by decide +kernel⟩, rfl, by decide +kernel⟩

/-- An ABANDON in SWEEPING with a read of the sweep granted, a drift sweep owed and a circuit that becomes SETTLED: the
hypotheses, and by log entries 9 and 11 the drift sweep's request held. -/
theorem witness_AbandonExecuted_granted :
    let r : Circuit := { settledA with state := .pending, prior := some .settled }
    let s := hand (overruns (sweeps .sweeping r (.closeSweep [0] 0 1 []) false) .owed 191) 8 []
    s.inHand .abandon ∧ s.abandonRefusal = none ∧ s.sweep.restoreList = [] ∧ s.sweep.captureRequest = none
      ∧ s.sweep.driftRequest = false ∧ s.sweep.job.isCloseSweep = true ∧ s.pass.buffer = none
      ∧ s.journal.demand = .owed ∧ s.journal.occupancy = 191
      ∧ (s.arbiter.port.any fun g => decide (g.who = .sweep)) = true
      ∧ gives (exec .abandon s) (fun t =>
        decide ((t.circuit 0).state = .settled) && decide (t.sweep.held = some (0x04000014, none))) = true := by
  unfold State.inHand; decide +kernel

/-! ### Witnesses of the invariants: circuit 0 loaded, in QUIET -/

theorem one_step : ∃ t, step (one .quiet settledA) = .next t := ⟨_, rfl⟩

theorem witness_TablesStayCanonical : ∃ s t : State, s.tablesCanonical ∧ step s = .next t :=
  ⟨one .quiet settledA, _, by unfold State.tablesCanonical; decide +kernel, rfl⟩

theorem witness_MapsFollowCircuits :
    ∃ s t : State, s.entriesAgree ∧ s.channelsAgree ∧ s.fencesAgree ∧ step s = .next t :=
  ⟨one .quiet settledA, _, one_entriesAgree _ _ rfl, one_channelsAgree _ _ rfl, one_fencesAgree _ _, rfl⟩

theorem one_countsAgree : (one .quiet settledA).countsAgree := by
  intro st
  cases st <;> decide +kernel

theorem one_numbersInRange : (one .quiet settledA).numbersInRange := by
  refine ⟨fun i c h => ?_, fun ch c h => ?_, trivial, nofun, nofun⟩
  · have hc := (one_entriesAgree .quiet settledA rfl i c).mp h
    by_contra hlt
    have h0 : 0 ≠ c := by rintro rfl; exact hlt (by decide)
    have : (one .quiet settledA).circuit c = {} := if_neg h0
    simp [this] at hc
  · have hc := (one_channelsAgree .quiet settledA rfl ch c).mp h
    by_contra hlt
    have h0 : 0 ≠ c := by rintro rfl; exact hlt (by decide)
    have : (one .quiet settledA).circuit c = {} := if_neg h0
    simp [this] at hc

theorem witness_CountsAndAssuredFollow :
    ∃ s t : State, s.numbersInRange ∧ s.countsAgree ∧ s.assuredAgrees ∧ step s = .next t :=
  ⟨{ one .quiet settledA with report := { assured := true } }, _, one_numbersInRange, one_countsAgree,
    by unfold State.assuredAgrees; decide +kernel, rfl⟩

theorem witness_EvidenceStaysSound : ∃ s t : State, s.evidenceSound ∧ step s = .next t :=
  ⟨State.reset, _, ⟨fun _ => ⟨Nat.zero_le _, Iff.intro (fun _ => rfl) fun _ => rfl, nofun, nofun⟩, nofun⟩, rfl⟩

theorem witness_BoundsAndJournalOrderKept : ∃ s t : State, s.withinBounds ∧ s.journalInOrder ∧ step s = .next t :=
  ⟨waits (up .opened) (record .opened false), _,
    ⟨fun _ => ⟨Nat.zero_le _, Nat.zero_le _, Nat.zero_le _⟩, by decide, by decide, by decide, by decide⟩,
    ⟨by decide, by decide +kernel⟩, rfl⟩

theorem witness_WindowStatesAgree :
    ∃ s t : State, s.numbersInRange ∧ s.countsAgree ∧ s.windowAgrees ∧ s.verdictsSettled ∧ s.timersAgree
      ∧ step s = .next t :=
  ⟨one .quiet settledA, _, one_numbersInRange, one_countsAgree, ⟨by simp [one, up], by simp [one, up, Job.isCloseSweep]⟩,
    ⟨nofun, nofun⟩, ⟨fun _ => rfl, fun _ => rfl, fun _ _ => rfl, fun _ => rfl⟩, rfl⟩

theorem witness_BlockStepsStayConsistent :
    ∃ s t : State, s.passConsistent ∧ s.oneWriter ∧ s.overrunAgrees ∧ s.summaryDue = false ∧ step s = .next t :=
  ⟨{ up .quiet with
      pass := { buffer := some posted, step := .drainWait closingAccess }
      journal := { overrun := some .closed, demand := .owed } }, _,
    ⟨rfl, fun _ _ h => by cases h; decide⟩, by simp [State.oneWriter, up, ReportWriter.isWriting],
    ⟨fun _ => rfl, fun _ => ⟨fun _ => by decide, fun _ => rfl⟩⟩, rfl, rfl⟩

theorem witness_OnlyTheseCommandsChange :
    ∃ (c : Instr) (s t : State), c ≠ .reset ∧ (∀ d b, c ≠ .resetEnd d b) ∧ exec c s = .next t ∧ ¬ failsAccess c
      ∧ ¬ mayAccept c :=
  ⟨.classify, up .quiet, _, nofun, nofun, rfl, by simp [failsAccess],
    by simp [mayAccept, presentsWrite, presentsRead]⟩

end Sys2Proof.Tests
end

section
/-!
What one command can do to the tables, the queues and the numbers of the part: an inductive relation of single moves on
the items that the invariants and the frame of all commands speak of. Every command is a chain of moves (below), so an
invariant is proved once per move, and the frame of the commands is read off the moves a command is entitled to.
-/

namespace Sys2Proof.Machine

/-! ### The items that matter -/

/-- The items of the part that its maps and bounds speak of, or that only named commands change; the tables as what
reading them gives. -/
structure Essence where
  inReset : Bool
  straps : Straps
  prescale : Nat
  layout : Option Layout
  circuit : Nat → Circuit
  mapEntry : Nat → MapEntry
  boundTo : Nat → Option Nat
  mode : Mode
  fault : FaultRecord
  starvation : Nat
  judged : List Judged
  waiting : List ChangeRecord
  nextSeq : BitVec 16
  arrivals : List Arrival
  silenceLimit : Nat
  number : BitVec 16
  settleTime : Nat
  verifyLimit : Nat
  steadyTime : Nat
  restoreList : List Nat
  producer : BitVec 16
  generation : BitVec 16
  lastReported : Nat
  enables : BitVec 9
  pending : BitVec 9
  unseen : BitVec 9

/-- The items of a state that matter here. -/
def State.essence (s : State) : Essence :=
  { inReset := s.inReset, straps := s.straps, prescale := s.prescale, layout := s.layout
    circuit := s.circuit, mapEntry := s.mapEntry, boundTo := s.boundTo, mode := s.store.mode
    fault := s.arbiter.fault, starvation := s.arbiter.starvation
    judged := s.journal.judged, waiting := s.journal.waiting, nextSeq := s.journal.nextSeq
    arrivals := s.trace.arrivals, silenceLimit := s.trace.silenceLimit
    number := s.window.number, settleTime := s.window.settleTime, verifyLimit := s.window.verifyLimit
    steadyTime := s.window.steadyTime, restoreList := s.sweep.restoreList
    producer := s.report.producer, generation := s.report.generation, lastReported := s.report.lastReported
    enables := s.report.enables, pending := s.report.pending, unseen := s.report.unseen }

/-- R13: the fence rule for an owner. -/
def Essence.fenceRule (e : Essence) (owner : Option Nat) : Bool :=
  owner.elim false fun c => fences e.mode (e.circuit c).state

/-- R8: the three saturating counts of a circuit are at most 255. -/
def Circuit.countsBounded (r : Circuit) : Prop :=
  r.changeCount ≤ Config.countMax ∧ r.fenceHits ≤ Config.countMax ∧ r.verdictChanges ≤ Config.countMax

/-- A record that may take another's place without a move of entries, channel or state: these stay, and so do the bounds
of its counts. -/
def Circuit.keepsPlace (r r' : Circuit) : Prop :=
  r'.state = r.state ∧ r'.entries = r.entries ∧ r'.channel = r.channel ∧ (r.countsBounded → r'.countsBounded)

/-- R4: the expected tag and the judgement parameters of two records are the same. -/
def Circuit.sameParameters (r r' : Circuit) : Prop :=
  r'.tag = r.tag ∧ r'.persistence = r.persistence ∧ r'.tolerance = r.tolerance ∧ r'.floor = r.floor
    ∧ r'.shift = r.shift

/-- The command may change what a circuit is defined as: a LOAD, a DROP, or a failed capture (R4, R17, R20). -/
def mayDefine (c : Instr) : Prop := c = .load ∨ c = .drop ∨ failsAccess c

/-! ### What the moves of the tables and the journal do -/

namespace Essence

variable (e : Essence)

/-- The record of circuit `k` becomes `r`. -/
def putCircuit (k : Nat) (r : Circuit) : Essence := { e with circuit := Function.update e.circuit k r }

/-- R14, R16: circuit `k` takes a state, and the fenced flags of its entries follow. -/
def restate (k : Nat) (st : CircuitState) : Essence :=
  let put := e.putCircuit k { e.circuit k with state := st }
  { put with
    mapEntry := fun i =>
      if i ∈ (e.circuit k).entries then { e.mapEntry i with fenced := put.fenceRule (e.mapEntry i).owner }
      else e.mapEntry i }

/-- R20, R22, R23: circuit `k` takes a list of entries. -/
def retarget (k : Nat) (new : List Nat) : Essence :=
  { e.putCircuit k { e.circuit k with entries := new } with
    mapEntry := fun i =>
      if i ∈ new ∧ i ∉ (e.circuit k).entries then { owner := some k, fenced := e.fenceRule (some k) }
      else if i ∈ (e.circuit k).entries ∧ i ∉ new then {} else e.mapEntry i }

/-- R11: circuit `k` binds channel `ch`. -/
def bind (k ch : Nat) : Essence :=
  { e.putCircuit k { e.circuit k with channel := some ch } with
    boundTo := fun j =>
      if j = ch then some k else if (e.circuit k).channel = some j then none else e.boundTo j }

/-- R17: circuit `k` is released. -/
def release (k : Nat) : Essence :=
  { e.putCircuit k { fenceHits := (e.circuit k).fenceHits } with
    mapEntry := fun i => if i ∈ (e.circuit k).entries then {} else e.mapEntry i
    boundTo := fun ch => if (e.circuit k).channel = some ch then none else e.boundTo ch
    restoreList := e.restoreList.filter (· != k) }

/-- R15: the mode changes, and every fenced flag with it. -/
def setMode (m : Mode) : Essence :=
  { e with
    mode := m
    mapEntry := fun i => { e.mapEntry i with
      fenced := ({ e with mode := m } : Essence).fenceRule (e.mapEntry i).owner } }

/-- R48: a record is stored with the next sequence number. -/
def store (r : ChangeRecord) : Essence :=
  { e with waiting := e.waiting ++ [{ r with seq := e.nextSeq }], nextSeq := e.nextSeq + 1 }

/-- R57: a judged record joins the classified ones, and these wait after it. -/
def classify (j : Judged) (rest : List ChangeRecord) : Essence :=
  { e with judged := e.judged ++ [j], waiting := rest }

end Essence

/-! ### The moves -/

/-- One move that command `c` is entitled to. -/
inductive Move (c : Instr) : Essence → Essence → Prop
  /-- R169: a cause raised joins the pending set and the unseen marks. -/
  | attend (e : Essence) (m : BitVec 9) :
      Move c e { e with pending := e.pending ||| m, unseen := e.unseen ||| m }
  /-- R170: pending causes leave with a forwarded read. -/
  | attentionRead (e : Essence) (p : BitVec 9) (h : ∃ d, c = .forwardedReadComplete d) :
      Move c e { e with pending := p }
  /-- R169: unseen marks leave with a word of the rewrite. -/
  | snapshotSeen (e : Essence) (u : BitVec 9) (h : c = .summaryWordComplete) : Move c e { e with unseen := u }
  /-- A record changes in fields that define nothing and place nothing. -/
  | edit (e : Essence) (k : Nat) (r : Circuit) (hr : (e.circuit k).keepsPlace r)
      (hp : (e.circuit k).sameParameters r) : Move c e (e.putCircuit k r)
  /-- R16: a circuit takes a state, and the fenced flags of its entries follow (R14). -/
  | restate (e : Essence) (k : Nat) (st : CircuitState) : Move c e (e.restate k st)
  /-- R4: a circuit takes the parameters of a LOAD. -/
  | parameters (e : Essence) (k : Nat) (r : Circuit) (hr : (e.circuit k).keepsPlace r) (h : mayDefine c) :
      Move c e (e.putCircuit k r)
  /-- R20, R22, R23: a circuit takes a list of entries that no other circuit owns. -/
  | retarget (e : Essence) (k : Nat) (new : List Nat)
      (own : ∀ i ∈ new, (e.mapEntry i).owner = none ∨ (e.mapEntry i).owner = some k) (h : mayDefine c) :
      Move c e (e.retarget k new)
  /-- R11: a circuit binds a channel that no other circuit has. -/
  | bind (e : Essence) (k ch : Nat) (own : e.boundTo ch = none ∨ e.boundTo ch = some k) (h : mayDefine c) :
      Move c e (e.bind k ch)
  /-- R17: a circuit is released. -/
  | release (e : Essence) (k : Nat) (h : mayDefine c) : Move c e (e.release k)
  /-- R15: a SET_POLICY changes the mode and every fenced flag. -/
  | mode (e : Essence) (m : Mode) (h : c = .setPolicy) : Move c e (e.setMode m)
  /-- R162: a SET_POLICY takes the enables. -/
  | enables (e : Essence) (x : BitVec 9) (h : c = .setPolicy) : Move c e { e with enables := x }
  /-- R161: a LAYOUT places the regions and empties the report ring. -/
  | layout (e : Essence) (l : Option Layout) (p : BitVec 16) (h : c = .layout) :
      Move c e { e with layout := l, producer := p }
  /-- R101: an OPEN takes the window's number. -/
  | number (e : Essence) (n : BitVec 16) (h : c = .openWindow) : Move c e { e with number := n }
  /-- R101: an OPEN takes the window's times. -/
  | times (e : Essence) (settle verify steady silence : Nat) (h : c = .openWindow) :
      Move c e { e with
        settleTime := settle, verifyLimit := verify, steadyTime := steady, silenceLimit := silence }
  /-- R46: a failure writes the fault record. -/
  | fault (e : Essence) (f : FaultRecord) (h : failsAccess c) : Move c e { e with fault := f }
  /-- R41: a grant sets the starvation count. -/
  | starve (e : Essence) (n : Nat) (hn : n ≤ Config.starvationLimit) (h : c = .portGrant) :
      Move c e { e with starvation := n }
  /-- R48: a record is stored with the next sequence number, with room in the journal. -/
  | store (e : Essence) (r : ChangeRecord) (room : e.judged.length + e.waiting.length < Config.journalRoom)
      (h : mayAccept c) : Move c e (e.store r)
  /-- R57: the oldest waiting record is classified. -/
  | classify (e : Essence) (j : Judged) (rest : List ChangeRecord) (hw : e.waiting = j.record :: rest)
      (h : c = .classify) : Move c e (e.classify j rest)
  /-- R50: the record at the report position is released. -/
  | dismiss (e : Essence) (h : c = .reportWordComplete) : Move c e { e with judged := e.judged.tail }
  /-- R166: the producer index rises. -/
  | produce (e : Essence) (h : c = .reportWordComplete) : Move c e { e with producer := e.producer + 1 }
  /-- R165: a CIRCUIT report is started. -/
  | lastReported (e : Essence) (k : Nat) (h : c = .reportWriteStart) : Move c e { e with lastReported := k }
  /-- R35: an arrival is pushed where the queue has room. -/
  | push (e : Essence) (a : Arrival) (room : e.arrivals.length < Config.arrivalRoom) :
      Move c e { e with arrivals := e.arrivals ++ [a] }
  /-- R67: the head arrival is taken. -/
  | take (e : Essence) : Move c e { e with arrivals := e.arrivals.tail }
  /-- R17, R118: circuits leave the restore list. -/
  | unlist (e : Essence) (l : List Nat) (hl : l.Sublist e.restoreList) : Move c e { e with restoreList := l }
  /-- R128: a circuit joins the restore list. -/
  | enlist (e : Essence) (k : Nat) (room : e.restoreList.length < Config.restoreRoom) (fresh : k ∉ e.restoreList) :
      Move c e { e with restoreList := e.restoreList ++ [k] }

/-- Moves that command `c` is entitled to lead from one state to another. -/
def Moves (c : Instr) (s t : State) : Prop := Relation.ReflTransGen (Move c) s.essence t.essence

end Sys2Proof.Machine
end

section
/-! Every shared operation of the part is a chain of moves. -/

namespace Sys2Proof.Machine

variable {c : Instr} (s : State)

/-! ### Chains -/

theorem Moves.refl (s : State) : Moves c s s := Relation.ReflTransGen.refl

theorem Moves.trans {s t u : State} (h : Moves c s t) (h' : Moves c t u) : Moves c s u :=
  Relation.ReflTransGen.trans h h'

/-- A chain extended at its end: read backwards, from the last operation to the first. -/
theorem Moves.after {s t u : State} (h' : Moves c t u) (h : Moves c s t) : Moves c s u := h.trans h'

/-- An operation that leaves the items alone is an empty chain. -/
theorem Moves.of_eq {s t : State} (h : t.essence = s.essence) : Moves c s t := by
  unfold Moves
  rw [h]

/-- A single move is a chain. -/
theorem Moves.single {s t : State} {e : Essence} (h : Move c s.essence e) (he : t.essence = e) : Moves c s t := by
  subst he
  exact Relation.ReflTransGen.single h

theorem Moves.forEach (f : State → Nat → State) (h : ∀ t k, Moves c t (f t k)) (l : List Nat) :
    Moves c s (s.forEach l f) :=
  State.forEach_induct s (Moves c s) f l (fun t k _ ht => ht.trans (h t k)) (Moves.refl s)

theorem Moves.forSome (f : State → Nat → State) (h : ∀ t k, Moves c t (f t k)) (o : Option Nat) :
    Moves c s (s.forSome o f) := by
  cases o with
  | none => exact Moves.refl s
  | some k => exact h s k

theorem Moves.ite {p : Prop} [Decidable p] {t u : State} (ht : p → Moves c s t) (hu : ¬ p → Moves c s u) :
    Moves c s (if p then t else u) := by
  split
  · exact ht ‹_›
  · exact hu ‹_›

/-- An effect made only on a condition is a chain if the effect is. -/
theorem Moves.ite_self {p : Prop} [Decidable p] {t : State} (ht : p → Moves c s t) :
    Moves c s (if p then t else s) := Moves.ite s ht fun _ => Moves.refl s

theorem Moves.ite_self' {p : Prop} [Decidable p] {t : State} (ht : ¬ p → Moves c s t) :
    Moves c s (if p then s else t) := Moves.ite s (fun _ => Moves.refl s) ht

/-! ### Marks and the window's fields -/

theorem State.raise_moves (k : Cause) : Moves c s (s.raise k) := by
  by_cases h : s.report.enables &&& k.mask = 0
  · rw [State.raise_disabled s k h]
    exact Moves.refl s
  · rw [State.raise_enabled s k h]
    exact Moves.single (Move.attend _ k.mask) rfl

theorem State.setWindowState_moves (w : WindowState) : Moves c s (s.setWindowState w) :=
  Moves.ite s (fun _ => Moves.refl s) fun _ => Moves.of_eq rfl

theorem State.setWindowFlags_moves (a b : Bool) : Moves c s (s.setWindowFlags a b) :=
  Moves.ite s (fun _ => Moves.refl s) fun _ => Moves.of_eq rfl

theorem State.setWindowNumber_moves (n : BitVec 16) (h : c = .openWindow) : Moves c s (s.setWindowNumber n) :=
  Moves.ite s (fun _ => Moves.refl s) fun _ => Moves.single (Move.number _ n h) rfl

theorem State.setWorkMember_moves (k : Nat) (b : Bool) : Moves c s (s.setWorkMember k b) := by
  rw [State.setWorkMember_frame]
  exact Moves.of_eq rfl

theorem State.clearWorkSet_moves : Moves c s s.clearWorkSet :=
  Moves.ite s (fun _ => Moves.refl s) fun _ => Moves.of_eq rfl

theorem State.wantSummaryIf_moves (b : Bool) : Moves c s (s.wantSummaryIf b) :=
  Moves.ite_self s fun _ => Moves.of_eq rfl

theorem State.writeFault_moves (addr : Nat) (kind : FaultKind) (m : Master) (h : failsAccess c) :
    Moves c s (s.writeFault addr kind m) := Moves.single (Move.fault _ ⟨addr, kind, m⟩ h) rfl

/-! ### Circuits and maps -/

theorem State.putCircuit_essence (k : Nat) (r : Circuit) :
    (s.putCircuit k r).essence = s.essence.putCircuit k r := by
  have hc : (s.putCircuit k r).circuit = Function.update s.circuit k r := by
    funext j
    simp [Function.update_apply]
  simp only [State.essence, hc]
  rfl

theorem State.putCircuit_moves (k : Nat) (r : Circuit) (hr : (s.circuit k).keepsPlace r)
    (hp : (s.circuit k).sameParameters r) : Moves c s (s.putCircuit k r) :=
  Moves.single (Move.edit _ k r hr hp) (s.putCircuit_essence k r)

theorem Circuit.sameParameters_refl (r : Circuit) : r.sameParameters r := ⟨rfl, rfl, rfl, rfl, rfl⟩

theorem bump_le (n : Nat) : bump n ≤ Config.countMax := Nat.min_le_left _ _

theorem State.setCircuitState_moves (k : Nat) (st : CircuitState) : Moves c s (s.setCircuitState k st) := by
  by_cases h : (s.circuit k).state = st
  · rw [State.setCircuitState_same s k st h]
    exact Moves.refl s
  · refine Moves.single (Move.restate _ k st) ?_
    obtain ⟨m, ct, owed, wanted, b, hs⟩ := State.setCircuitState_frame s k st
    have hc : (s.setCircuitState k st).circuit
        = Function.update s.circuit k { s.circuit k with state := st } := by
      funext j
      simp [Function.update_apply]
    have hm : (s.setCircuitState k st).mapEntry = fun i =>
        if i ∈ (s.circuit k).entries then { s.mapEntry i with fenced :=
          (s.putCircuit k { s.circuit k with state := st }).fenceRule (s.mapEntry i).owner }
        else s.mapEntry i := by
      funext i
      simp [State.setCircuitState_mapEntry, h]
    have hb : (s.setCircuitState k st).boundTo = s.boundTo := by
      funext ch
      simp
    have hrule : (s.putCircuit k { s.circuit k with state := st }).fenceRule
        = (s.putCircuit k { s.circuit k with state := st }).essence.fenceRule := rfl
    rw [hrule, State.putCircuit_essence] at hm
    rw [State.essence, hc, hm, hb, hs]
    rfl

/-- R8: the change count of a circuit rises. -/
theorem State.bumpChanges_moves (k : Nat) : Moves c s (s.bumpChanges k) :=
  s.putCircuit_moves k _ ⟨rfl, rfl, rfl, fun ⟨_, hf, hv⟩ => ⟨bump_le _, hf, hv⟩⟩ (Circuit.sameParameters_refl _)

theorem State.retarget_moves (k : Nat) (new : List Nat)
    (own : ∀ i ∈ new, (s.mapEntry i).owner = none ∨ (s.mapEntry i).owner = some k) (h : mayDefine c) :
    Moves c s (s.retarget k new) := by
  refine Moves.single (Move.retarget _ k new own h) ?_
  have hc : (s.retarget k new).circuit = Function.update s.circuit k { s.circuit k with entries := new } := by
    funext j
    simp [Function.update_apply]
  have hm : (s.retarget k new).mapEntry = _ := funext (s.retarget_mapEntry k new)
  have hb : (s.retarget k new).boundTo = s.boundTo := by
    rw [State.retarget_frame]
    rfl
  simp only [State.essence, hc, hm, hb]
  rw [State.retarget_frame]
  rfl

theorem State.bind_moves (k ch : Nat) (own : s.boundTo ch = none ∨ s.boundTo ch = some k) (h : mayDefine c) :
    Moves c s (s.bind k ch) := by
  by_cases hch : (s.circuit k).channel = some ch
  · have hs : s.bind k ch = s := if_pos hch
    rw [hs]
    exact Moves.refl s
  · refine Moves.single (Move.bind _ k ch own h) ?_
    have hc : (s.bind k ch).circuit = Function.update s.circuit k { s.circuit k with channel := some ch } := by
      funext j
      simp [Function.update_apply]
    have hb : (s.bind k ch).boundTo = _ := funext fun j => s.bind_boundTo k ch j hch
    have hm : (s.bind k ch).mapEntry = s.mapEntry := by
      rw [State.bind_frame]
      rfl
    simp only [State.essence, hc, hm, hb]
    rw [State.bind_frame]
    rfl

theorem State.unlistRestore_moves (k : Nat) : Moves c s (s.unlistRestore k) := by
  refine Moves.single (Move.unlist _ (s.sweep.restoreList.filter (· != k)) List.filter_sublist) ?_
  rw [State.unlistRestore_frame]
  rfl

/-- R17: a release, taken apart: first the entries and the channel are freed, then the lists, the record and the state
follow. -/
theorem State.release_freed (k : Nat) :
    ∃ t : State, s.release k = (((t.unlistRestore k).setWorkMember k false).putCircuit k
        { state := (s.circuit k).state, fenceHits := (s.circuit k).fenceHits }).setCircuitState k .empty
      ∧ t = { s with
          store := { s.store with entryMap := t.store.entryMap, channelMap := t.store.channelMap }
          trace := { s.trace with evidence := t.trace.evidence } }
      ∧ ∀ ch, t.evidenceOf ch =
          if (s.circuit k).channel = some ch then { s.evidenceOf ch with silence := .stopped }
          else s.evidenceOf ch := by
  refine ⟨(s.forEach (s.circuit k).entries State.unclaim).forSome (s.circuit k).channel State.unbind, rfl, ?_, ?_⟩
  all_goals rw [State.unclaimAll_frame]
  · cases (s.circuit k).channel <;> rfl
  · intro ch
    cases hch : (s.circuit k).channel with
    | none => simp [State.forSome, State.evidenceOf]
    | some o =>
      simp only [State.forSome, Option.elim_some, State.unbind, State.setSilence_evidenceOf, Option.some.injEq]
      by_cases ho : ch = o
      · subst ho
        simp [State.evidenceOf]
      · simp [ho, Ne.symm ho, State.evidenceOf]

/-- R17: a release changes the Circuit Store, the evidence of the channel, the restore list, the work set and marks. -/
theorem State.release_frame (k : Nat) :
    s.release k = { s with
      store := { (s.release k).store with mode := s.store.mode }
      trace := { s.trace with evidence := (s.release k).trace.evidence }
      window := { s.window with workSet := (s.release k).window.workSet }
      sweep := { s.sweep with restoreList := s.sweep.restoreList.filter (· != k) }
      report := { s.report with
        owed := (s.release k).report.owed, windowOwed := (s.release k).report.windowOwed
        wanted := (s.release k).report.wanted, assured := (s.release k).report.assured } } := by
  obtain ⟨t, ht, hframe, -⟩ := s.release_freed k
  rw [ht]
  obtain ⟨m, ct, owed, wanted, b, hs⟩ := State.setCircuitState_frame (((t.unlistRestore k).setWorkMember k
    false).putCircuit k { state := (s.circuit k).state, fenceHits := (s.circuit k).fenceHits }) k .empty
  rw [hs, State.setWorkMember_frame, State.unlistRestore_frame, hframe]
  rfl

/-- R17, R79: the channel of a released circuit keeps its evidence, its silence timer stopped. -/
theorem State.release_evidenceOf (k ch : Nat) :
    (s.release k).evidenceOf ch =
      if (s.circuit k).channel = some ch then { s.evidenceOf ch with silence := .stopped } else s.evidenceOf ch := by
  obtain ⟨t, ht, -, hevidence⟩ := s.release_freed k
  rw [ht, State.setCircuitState_evidenceOf, ← hevidence ch, State.putCircuit_evidenceOf, State.setWorkMember_frame,
    State.unlistRestore_frame]
  rfl

/-- R17, R104: a released circuit leaves the work set. -/
theorem State.release_member (k j : Nat) :
    Table.get false (s.release k).window.workSet j
      = if j = k then false else Table.get false s.window.workSet j := by
  obtain ⟨t, ht, -, -, -, -, -, hmember⟩ := State.release_some s k
  obtain ⟨m, ct, owed, wanted, b, hs⟩ := t.setCircuitState_frame k .empty
  rw [ht, hs, ← hmember j]

/-- R16, R17: the release of a loaded circuit makes its CIRCUIT report owed. -/
theorem State.release_owes (k : Nat) (h : (s.circuit k).state ≠ .empty) :
    Table.get false (s.release k).report.owed k = true := by
  obtain ⟨t, ht, hcircuit, -⟩ := State.release_some s k
  rw [ht]
  exact t.setCircuitState_owes k .empty (by simpa [hcircuit] using h)

theorem State.release_moves (k : Nat) (h : mayDefine c) : Moves c s (s.release k) := by
  refine Moves.single (Move.release _ k h) ?_
  have hc : (s.release k).circuit = Function.update s.circuit k { fenceHits := (s.circuit k).fenceHits } := by
    funext j
    simp [State.release_circuit, Function.update_apply]
  have hm : (s.release k).mapEntry = _ := funext (s.release_mapEntry k)
  have hb : (s.release k).boundTo = _ := funext (s.release_boundTo k)
  rw [State.essence, hc, hm, hb, State.release_frame]
  rfl

theorem State.setMode_moves (m : Mode) (h : c = .setPolicy) : Moves c s (s.setMode m) := by
  by_cases hmode : s.store.mode = m
  · rw [State.setMode_same s m hmode]
    exact Moves.refl s
  · obtain ⟨map, hs, hmap⟩ := State.setMode_change s m hmode
    refine Moves.single (Move.mode _ m h) ?_
    have hm : (s.setMode m).mapEntry = fun i => { s.mapEntry i with
        fenced := ({ s.essence with mode := m } : Essence).fenceRule (s.mapEntry i).owner } := by
      funext i
      rw [hs]
      refine (hmap i).trans ?_
      split
      · rfl
      · rename_i hi
        have hnone : s.mapEntry i = {} := Table.get_unlisted ({} : MapEntry) hi
        simp [hnone, Essence.fenceRule]
    have hc : (s.setMode m).circuit = s.circuit := by
      rw [hs]
      rfl
    simp only [State.essence, hm, hc]
    rw [hs]
    rfl

end Sys2Proof.Machine
end

section
/-! Chains of moves, block by block. -/

namespace Sys2Proof.Machine

variable {c : Instr} (s : State)

/-! ### The Sweep Engine's requests and jobs (R119, R120) -/

theorem State.releaseHeldSweep_moves : Moves c s s.releaseHeldSweep :=
  Moves.of_eq (by rw [State.releaseHeldSweep_frame]; rfl)

theorem State.runJob_moves (j : Job) : Moves c s (s.runJob j) :=
  Moves.of_eq (by rw [State.runJob_frame]; rfl)

theorem State.setDemand_moves (d : Demand) : Moves c s (s.setDemand d) := Moves.of_eq rfl

theorem State.clearOverrun_moves : Moves c s s.clearOverrun :=
  Moves.of_eq (by rw [State.clearOverrun_frame]; rfl)

theorem State.markDriftDue_moves : Moves c s s.markDriftDue :=
  Moves.of_eq (by rw [State.markDriftDue_frame]; rfl)

theorem State.driftSweepEnded_moves : Moves c s s.driftSweepEnded := by
  unfold State.driftSweepEnded
  split
  · exact Moves.after (State.clearOverrun_moves _) (Moves.of_eq rfl)
  · exact Moves.after (State.markDriftDue_moves _) (Moves.of_eq rfl)
  · exact Moves.refl s
  · exact Moves.refl s

theorem State.startRestore_moves : Moves c s s.startRestore := by
  unfold State.startRestore
  split
  · exact Moves.refl s
  · rename_i k rest hlist
    have hsub : rest.Sublist s.sweep.restoreList := by simp [hlist]
    exact Moves.after (State.runJob_moves _ _) <| Moves.after (State.setCircuitState_moves _ k .restoring) <|
      Moves.single (Move.unlist _ rest hsub) rfl

theorem State.startDriftSweep_moves : Moves c s s.startDriftSweep := by
  unfold State.startDriftSweep
  have hrun : Moves c s (if s.journal.demand = .owed then
        State.setDemand { s with sweep := { s.sweep with driftRequest := false } } .running
      else { s with sweep := { s.sweep with driftRequest := false } }) := by
    split <;> exact Moves.of_eq rfl
  simp only
  split
  · exact Moves.after (State.runJob_moves _ _) hrun
  · exact Moves.after (State.startRestore_moves _) <| Moves.after (State.driftSweepEnded_moves _) hrun

theorem State.startNextJob_moves : Moves c s s.startNextJob := by
  refine Moves.ite s (fun _ => Moves.refl s) fun _ => ?_
  split
  · exact Moves.after (State.runJob_moves _ _) (Moves.of_eq rfl)
  · exact Moves.ite s (fun _ => s.startDriftSweep_moves) fun _ => s.startRestore_moves

theorem State.requestDriftSweep_moves : Moves c s s.requestDriftSweep :=
  Moves.ite_self s fun _ => s.markDriftDue_moves.trans (State.startNextJob_moves _)

/-! ### The Directive Unit -/

theorem State.seekSlot_moves : Moves c s s.seekSlot := Moves.of_eq (by rw [State.seekSlot_frame]; rfl)

theorem State.startCompleting_moves (left : List (Nat × Word)) (n : Nat) : Moves c s (s.startCompleting left n) :=
  Moves.of_eq (by rw [State.startCompleting_frame]; rfl)

theorem State.answerDirective_moves (a : DirectiveAnswer) : Moves c s (s.answerDirective a) :=
  Moves.after (State.startCompleting_moves _ _ _) (Moves.ite_self s fun _ => s.raise_moves .refused)

theorem State.checkChain_moves : Moves c s s.checkChain := by
  unfold State.checkChain
  split
  · exact s.answerDirective_moves _
  · exact Moves.of_eq rfl

theorem State.joinChain_moves (slot : List Word) : Moves c s (s.joinChain slot) :=
  Moves.ite s (fun _ => Moves.after (State.seekSlot_moves _) (Moves.of_eq rfl))
    fun _ => Moves.after (State.checkChain_moves _) (Moves.of_eq rfl)

theorem State.takeFetchedWord_moves (words : List Word) (data : Word) : Moves c s (s.takeFetchedWord words data) :=
  Moves.ite s (fun _ => Moves.after (State.seekSlot_moves _) (Moves.of_eq rfl)) fun _ =>
    Moves.ite s (fun _ => Moves.of_eq rfl) fun _ => s.joinChain_moves _

theorem State.faultFetch_moves (words : List Word) : Moves c s (s.faultFetch words) :=
  Moves.after (State.startCompleting_moves _ _ _) (Moves.of_eq rfl)

theorem State.endCompletionWrite_moves (left : List (Nat × Word)) (n : Nat) :
    Moves c s (s.endCompletionWrite left n) := by
  unfold State.endCompletionWrite
  split
  · exact Moves.after (State.seekSlot_moves _) (Moves.of_eq rfl)
  · exact s.startCompleting_moves _ _

/-! ### Verdicts -/

theorem State.oweCircuit_moves (k : Nat) : Moves c s (s.oweCircuit k) := Moves.of_eq rfl

theorem State.endJob_moves : Moves c s s.endJob := Moves.of_eq rfl

theorem State.changeVerdict_moves (k : Nat) (st : CircuitState) (cause : Option VerdictCause) :
    Moves c s (s.changeVerdict k st cause) :=
  Moves.after (State.oweCircuit_moves _ k) <| Moves.after (State.setCircuitState_moves _ k st) <|
    s.putCircuit_moves k _ ⟨rfl, rfl, rfl, fun ⟨hc, hf, _⟩ => ⟨hc, hf, bump_le _⟩⟩ ⟨rfl, rfl, rfl, rfl, rfl⟩

theorem State.actSteady_moves : Moves c s s.actSteady := Moves.of_eq rfl

theorem State.evaluateHandedOver_moves (k ch : Nat) : Moves c s (s.evaluateHandedOver k ch) :=
  Moves.ite_self s fun _ => Moves.ite s (fun _ => Moves.refl s) fun _ =>
    Moves.after (State.actSteady_moves _) (s.changeVerdict_moves k _ _)

theorem State.stopSilence_moves : Moves c s s.stopSilence := by
  obtain ⟨ev, hev⟩ := s.stopSilence_some
  exact Moves.of_eq (by rw [hev]; rfl)

theorem State.conclude_moves : Moves c s s.conclude :=
  Moves.after (State.raise_moves _ .concluded) <| Moves.after (State.setWindowState_moves _ .concluded) <|
    Moves.after (State.stopSilence_moves s.stopVerdictTimers) (Moves.of_eq rfl)

theorem State.pendAfresh_moves (k : Nat) : Moves c s (s.pendAfresh k) := by
  have hput : Moves c s (s.putCircuit k { s.circuit k with cause := none }) :=
    s.putCircuit_moves k _ ⟨rfl, rfl, rfl, id⟩ ⟨rfl, rfl, rfl, rfl, rfl⟩
  have htold : Moves c s (if (s.circuit k).cause.isSome then
      (s.putCircuit k { s.circuit k with cause := none }).oweCircuit k
      else s.putCircuit k { s.circuit k with cause := none }) :=
    hput.trans (Moves.ite_self _ fun _ => Moves.of_eq rfl)
  exact Moves.after (Moves.forSome _ State.resetEvidence (fun _ _ => Moves.of_eq rfl) _) <|
    Moves.after (State.setCircuitState_moves _ k .pending) htold

theorem State.startVerification_moves (k : Nat) : Moves c s (s.startVerification k) :=
  Moves.after (Moves.forSome _ (fun s ch => s.setSilence ch (.running s.trace.silenceLimit))
      (fun _ _ => Moves.of_eq rfl) _) <|
    s.putCircuit_moves k _ ⟨rfl, rfl, rfl, fun ⟨hc, hf, _⟩ => ⟨hc, hf, Nat.zero_le _⟩⟩ ⟨rfl, rfl, rfl, rfl, rfl⟩

theorem State.settleEntry_moves : Moves c s s.settleEntry :=
  Moves.ite s (fun _ => s.conclude_moves) fun _ => Moves.ite_self s fun _ => Moves.of_eq rfl

theorem State.withVerdict_moves (v : Verdict) : Moves c s { s with verdict := v } := Moves.of_eq rfl

theorem State.enterVerifying_moves (chosen : Circuit → Bool) : Moves c s (s.enterVerifying chosen) := by
  unfold State.enterVerifying
  exact Moves.after (State.settleEntry_moves _) <| Moves.after (State.setWindowState_moves _ .verifying) <|
    ((Moves.forEach s _ State.pendAfresh_moves _).trans
      (Moves.forEach _ _ State.startVerification_moves _)).trans (State.withVerdict_moves _ _)

/-! ### The window and the Sweep Engine's work -/

theorem State.sweepOn_moves (set : List Nat) (low : Nat) : Moves c s (s.sweepOn set low) := by
  unfold State.sweepOn
  split
  · exact s.runJob_moves _
  · exact Moves.after (State.enterVerifying_moves s.endJob _) s.endJob_moves

theorem State.recordSwept_moves (k : Nat) (words : List Word) : Moves c s (s.recordSwept k words) :=
  Moves.ite s
    (fun _ => Moves.after (State.oweCircuit_moves _ k) <|
      s.putCircuit_moves k _ ⟨rfl, rfl, rfl, id⟩ ⟨rfl, rfl, rfl, rfl, rfl⟩)
    fun _ => Moves.ite_self s fun _ => Moves.after (State.setCircuitState_moves _ k .pending) <|
      s.putCircuit_moves k _ ⟨rfl, rfl, rfl, id⟩ ⟨rfl, rfl, rfl, rfl, rfl⟩

theorem State.driftSettled_moves (k : Nat) : Moves c s (s.driftSettled k) :=
  Moves.ite_self s fun _ => Moves.after (State.raise_moves _ .drift) (s.setCircuitState_moves k .drifted)

theorem State.recordUnreadable_moves (k : Nat) : Moves c s (s.recordUnreadable k) :=
  Moves.ite s
    (fun _ => Moves.after (State.setCircuitState_moves _ k .broken) <| Moves.after (State.oweCircuit_moves _ k) <|
      s.putCircuit_moves k _ ⟨rfl, rfl, rfl, id⟩ ⟨rfl, rfl, rfl, rfl, rfl⟩)
    fun _ => s.driftSettled_moves k

theorem State.enterSweeping_moves : Moves c s s.enterSweeping :=
  Moves.after (State.sweepOn_moves _ _ 0) <| Moves.after (State.setWindowState_moves _ .sweeping) (Moves.of_eq rfl)

theorem State.leaveSettlingIfDone_moves : Moves c s s.leaveSettlingIfDone :=
  Moves.ite_self s fun _ => s.enterSweeping_moves

theorem State.withTimers_moves (deadline settle : Timer) :
    Moves c s { s with window := { s.window with deadline, settle } } := Moves.of_eq rfl

theorem State.closeWindow_moves : Moves c s s.closeWindow := by
  unfold State.closeWindow
  exact Moves.after (State.setWindowState_moves _ .settling) <|
    (Moves.forEach s _ (fun t k => t.setCircuitState_moves k .pending) _).trans (State.withTimers_moves _ _ _)

theorem State.endWindow_moves : Moves c s s.endWindow :=
  Moves.after (State.setWindowState_moves _ .quiet) s.clearWorkSet_moves

theorem State.finishCapture_moves (k : Nat) : Moves c s (s.finishCapture k) := by
  unfold State.finishCapture
  exact Moves.after (State.startNextJob_moves _) <| Moves.after (State.answerDirective_moves _ _) <|
    Moves.after (State.endJob_moves _) <| Moves.after (State.oweCircuit_moves _ k) <|
    Moves.after (State.setCircuitState_moves _ k _) <|
    s.putCircuit_moves k _ ⟨rfl, rfl, rfl, id⟩ ⟨rfl, rfl, rfl, rfl, rfl⟩

theorem State.failCapture_moves (k p : Nat) (h : mayDefine c) : Moves c s (s.failCapture k p) :=
  Moves.after (State.startNextJob_moves _) <| Moves.after (State.answerDirective_moves _ _) <|
    Moves.after (State.endJob_moves _) (s.release_moves k h)

theorem State.driftOn_moves (low : Nat) : Moves c s (s.driftOn low) := by
  unfold State.driftOn
  split
  · exact s.runJob_moves _
  · exact Moves.after (State.startNextJob_moves _) <| Moves.after (State.driftSweepEnded_moves _) s.endJob_moves

theorem State.takeDriftWord_moves (k p : Nat) (data : Word) : Moves c s (s.takeDriftWord k p data) :=
  Moves.ite s (fun _ => s.driftOn_moves _) fun _ =>
    Moves.ite s (fun _ => (s.driftSettled_moves k).trans (State.driftOn_moves _ _)) fun _ =>
      Moves.ite s (fun _ => s.runJob_moves _) fun _ => s.driftOn_moves _

theorem State.finishRestore_moves (k : Nat) (st : CircuitState) (o : RestoreOutcome) (cause : Option VerdictCause) :
    Moves c s (s.finishRestore k st o cause) :=
  Moves.after (State.startNextJob_moves _) <| Moves.after (State.endJob_moves _) <|
    Moves.after (State.raise_moves _ .restoreDone) <| Moves.after (State.oweCircuit_moves _ k) <|
    Moves.after (State.setCircuitState_moves _ k st) <|
    s.putCircuit_moves k _ ⟨rfl, rfl, rfl, id⟩ ⟨rfl, rfl, rfl, rfl, rfl⟩

/-! ### The Change Journal -/

theorem State.storeRecord_moves (r : ChangeRecord) (room : s.journal.occupancy < Config.journalRoom)
    (h : mayAccept c) : Moves c s (s.storeRecord r) :=
  (Moves.single (Move.store _ r room h) rfl).trans (Moves.ite_self _ fun _ => State.raise_moves _ .journalHalf)

theorem State.loseCapture_moves (phase : Phase) : Moves c s (s.loseCapture phase) := by
  have hflag : Moves c s (if s.journal.overrun.isSome then s
      else ((State.wantSummary { s with journal := { s.journal with overrun := some phase } }).raise
        .journalOverrun)) :=
    Moves.ite s (fun _ => Moves.refl s) fun _ =>
      Moves.after (State.raise_moves _ .journalOverrun) (Moves.of_eq rfl)
  have htold (t : State) : Moves c t (if phase = .outside then t else t.setWindowFlags true t.window.overtime) :=
    Moves.ite t (fun _ => Moves.refl t) fun _ => t.setWindowFlags_moves _ _
  exact Moves.after (State.requestDriftSweep_moves _) <| Moves.after (State.setDemand_moves _ _) <|
    hflag.trans (htold _)

theorem State.capture_moves (index : Nat) (data : Word) (lanes : Lanes) (m : Master) (fenced : Bool)
    (h : mayAccept c) : Moves c s (s.capture index data lanes m fenced) :=
  Moves.ite s (fun room => s.storeRecord_moves _ room h) fun _ => s.loseCapture_moves _

theorem State.releaseRecord_moves (h : c = .reportWordComplete) : Moves c s s.releaseRecord :=
  Moves.after (State.requestDriftSweep_moves _) (Moves.single (Move.dismiss _ h) rfl)

theorem State.judgeFenced_moves (owner : Option Nat) : Moves c s (s.judgeFenced owner) := by
  refine Moves.after (State.raise_moves _ .fenceHit) (Moves.forSome s _ (fun t k => ?_) owner)
  exact Moves.after (State.oweCircuit_moves _ k) <| t.putCircuit_moves k _
    ⟨rfl, rfl, rfl, fun ⟨hc, _, hv⟩ => ⟨hc, bump_le _, hv⟩⟩ ⟨rfl, rfl, rfl, rfl, rfl⟩

theorem State.joinUndeclared_moves (k : Nat) : Moves c s (s.joinUndeclared k) :=
  Moves.after (State.setCircuitState_moves _ k _) <|
    s.putCircuit_moves k _ ⟨rfl, rfl, rfl, fun ⟨_, hf, hv⟩ => ⟨Nat.le_of_ble_eq_true rfl, hf, hv⟩⟩
      ⟨rfl, rfl, rfl, rfl, rfl⟩

theorem State.judgeDrift_moves (k : Nat) : Moves c s (s.judgeDrift k) := by
  have hprior : Moves c s ((s.putCircuit k { s.circuit k with prior := some .drifted }).raise .drift) :=
    Moves.after (State.raise_moves _ .drift) <|
      s.putCircuit_moves k _ ⟨rfl, rfl, rfl, id⟩ ⟨rfl, rfl, rfl, rfl, rfl⟩
  have hstate : Moves c s ((s.setCircuitState k .drifted).raise .drift) :=
    Moves.after (State.raise_moves _ .drift) (s.setCircuitState_moves k .drifted)
  unfold State.judgeDrift
  simp only
  split
  case h_1 => exact s.putCircuit_moves k _ ⟨rfl, rfl, rfl, id⟩ ⟨rfl, rfl, rfl, rfl, rfl⟩
  case h_2 | h_3 => exact hstate
  case h_10 | h_11 | h_12 => exact Moves.refl s
  all_goals exact Moves.ite_self s fun _ => hprior

theorem State.judgeOwner_moves (k : Classification) (owner : Option Nat) : Moves c s (s.judgeOwner k owner) := by
  cases k with
  | fenced => exact s.judgeFenced_moves owner
  | stray => exact Moves.refl s
  | declared => exact Moves.forSome s _ State.bumpChanges_moves owner
  | undeclared =>
    exact Moves.forSome s _ (fun t k => Moves.ite t (fun _ => t.bumpChanges_moves k)
      fun _ => t.joinUndeclared_moves k) owner
  | drift => exact Moves.forSome s _ State.judgeDrift_moves owner

end Sys2Proof.Machine
end

section
/-! Chains of moves: the Pass Path, the Memory Arbiter and the Report Unit. -/

namespace Sys2Proof.Machine

variable {c : Instr} (s : State)

/-! ### Classification (R57) -/

/-- R59 to R62: the effect of a classification on the owner leaves the journal's records alone. -/
theorem State.judgeOwner_journal (k : Classification) (owner : Option Nat) :
    (s.judgeOwner k owner).journal = s.journal := by
  have hstate (t : State) (j : Nat) (st : CircuitState) : (t.setCircuitState j st).journal = t.journal := by
    obtain ⟨m, ct, owed, wanted, b, hs⟩ := t.setCircuitState_frame j st
    rw [hs]
  have hraise (t : State) (x : Cause) : (t.raise x).journal = t.journal := by rw [State.raise_frame]
  cases k with
  | stray => rfl
  | fenced =>
    refine (hraise _ _).trans (State.forSome_keeps s State.journal _ (fun t j => ?_) owner)
    rfl
  | declared => exact State.forSome_keeps s State.journal State.bumpChanges (fun _ _ => rfl) owner
  | undeclared =>
    refine State.forSome_keeps s State.journal _ (fun t j => ?_) owner
    split
    · rfl
    · exact hstate _ j _
  | drift =>
    refine State.forSome_keeps s State.journal _ (fun t j => ?_) owner
    unfold State.judgeDrift
    dsimp only
    split
    case h_1 => rfl
    case h_2 | h_3 => exact (hraise _ _).trans (hstate _ _ _)
    case h_10 | h_11 | h_12 => rfl
    all_goals
      split
      · exact hraise _ _
      · rfl

theorem State.classifyNext_moves (h : c = .classify) : Moves c s s.classifyNext := by
  unfold State.classifyNext
  split
  · exact Moves.refl s
  · rename_i r rest hwait
    have hmoved : ∀ k o, Moves c s { s.judgeOwner k o with journal := { (s.judgeOwner k o).journal with
        judged := (s.judgeOwner k o).journal.judged ++ [⟨r, k, o⟩], waiting := rest } } := fun k o =>
      (s.judgeOwner_moves k o).trans (Moves.single (Move.classify _ ⟨r, k, o⟩ rest
        ((congrArg Journal.waiting (s.judgeOwner_journal k o)).trans hwait) h) rfl)
    exact (hmoved _ _).trans (Moves.ite_self _ fun _ => State.leaveSettlingIfDone_moves _)

/-! ### Accepting an access (R29 to R38) -/

theorem State.postWrite_moves (a : Access) (data : Word) (lanes : Lanes) : Moves c s (s.postWrite a data lanes) :=
  Moves.of_eq rfl

theorem State.acceptConnection_moves (a : Access) (i : Nat) (data : Word) (lanes : Lanes) (h : mayAccept c) :
    Moves c s (s.acceptConnection a i data lanes) :=
  Moves.ite s (fun _ => Moves.after (State.capture_moves _ i data lanes _ true h) (Moves.of_eq rfl))
    fun _ => Moves.after (State.capture_moves _ i data lanes _ false h) (s.postWrite_moves a data lanes)

theorem State.acceptClosing_moves (a : Access) (ch : Nat) (data : Word) (lanes : Lanes) :
    Moves c s (s.acceptClosing a ch data lanes) :=
  Moves.ite s (fun room => Moves.after (State.postWrite_moves _ a data lanes) (Moves.single (Move.push _ _ room) rfl))
    fun _ => Moves.of_eq rfl

theorem State.takeConsumer_moves (v : BitVec 16) : Moves c s (s.takeConsumer v) :=
  Moves.ite s (fun _ => Moves.after (State.wantSummaryIf_moves _ _) (Moves.of_eq rfl))
    fun _ => Moves.after (State.wantSummaryIf_moves _ _) (Moves.of_eq rfl)

theorem State.assembleLanding_moves (ch w : Nat) (data : Word) (lanes : Lanes) :
    Moves c s (s.assembleLanding ch w data lanes) := by
  unfold State.assembleLanding
  dsimp only
  generalize Table.set zeroTag s.pass.assembly ch _ = assembly
  exact Moves.of_eq rfl

theorem State.acceptWrite_moves (a : Access) (data : Word) (lanes : Lanes) (h : mayAccept c) :
    Moves c s (s.acceptWrite a data lanes) := by
  have hpost := s.postWrite_moves (c := c) a data lanes
  unfold State.acceptWrite
  split
  · exact s.acceptConnection_moves a _ data lanes h
  · exact Moves.ite s (fun _ => hpost) fun _ =>
      Moves.ite s (fun _ =>
        Moves.after (State.postWrite_moves _ a data lanes) (State.assembleLanding_moves s _ _ data lanes)) fun _ =>
        Moves.ite s (fun _ => s.acceptClosing_moves a _ data lanes) fun _ => hpost
  · exact Moves.ite s
      (fun _ => Moves.after (State.postWrite_moves _ a data lanes) (s.takeConsumer_moves _)) fun _ => hpost
  all_goals exact hpost

theorem State.takeAccess_moves (a : Access) (h : mayAccept c) : Moves c s (s.takeAccess a) := by
  unfold State.takeAccess
  split
  · exact Moves.of_eq rfl
  · exact s.acceptWrite_moves a _ _ h

theorem State.present_moves (addr : WordAddr) (op : AccessOp) (m : Master) (h : mayAccept c) :
    Moves c s (s.present addr op m) :=
  Moves.ite s (fun _ => Moves.refl s) fun _ => Moves.ite s (fun _ => Moves.of_eq rfl) fun _ =>
    Moves.ite s (fun _ => Moves.of_eq rfl) fun _ => Moves.after (State.takeAccess_moves _ _ h) (Moves.of_eq rfl)

theorem State.releaseDrain_moves (h : mayAccept c) : Moves c s s.releaseDrain := by
  unfold State.releaseDrain
  split
  · exact Moves.ite s (fun _ => Moves.of_eq rfl) fun _ => s.takeAccess_moves _ h
  all_goals exact Moves.refl s

theorem State.emptyBuffer_moves (h : mayAccept c) : Moves c s s.emptyBuffer :=
  Moves.after (State.releaseDrain_moves _ h) <| Moves.after (State.releaseHeldSweep_moves _) (Moves.of_eq rfl)

theorem State.noteReady_moves (p : Posted) : Moves c s (s.noteReady p) := by
  unfold State.noteReady
  split
  · exact Moves.ite_self s fun _ => Moves.of_eq rfl
  · exact Moves.refl s

theorem State.completeForwardedWrite_moves (h : mayAccept c) : Moves c s s.completeForwardedWrite := by
  unfold State.completeForwardedWrite
  split
  · exact Moves.after (State.seekSlot_moves _) <| Moves.after (State.emptyBuffer_moves _ h) <|
      Moves.after (State.noteReady_moves _ _) (Moves.of_eq rfl)
  · exact Moves.refl s

theorem State.completeForwardedRead_moves (data : Word) (h : c = .forwardedReadComplete data) :
    Moves c s (s.completeForwardedRead data) := by
  unfold State.completeForwardedRead
  split
  · exact Moves.ite s (fun _ => Moves.single (Move.attentionRead _ _ ⟨data, h⟩) rfl) fun _ => Moves.of_eq rfl
  · exact Moves.refl s

theorem State.expireHold_moves : Moves c s s.expireHold := by
  unfold State.expireHold
  split
  · split
    · exact Moves.of_eq rfl
    · exact Moves.refl s
  all_goals exact Moves.refl s

/-! ### The Memory Arbiter (R40 to R46) -/

theorem State.grantPort_moves (h : c = .portGrant) : Moves c s s.grantPort := by
  have hinternal : ∀ who r, Moves c s (s.grantInternal who r) := fun who r => by
    have hzero : Move c s.essence { s.essence with starvation := 0 } := Move.starve _ 0 (Nat.zero_le _) h
    cases who with
    | passPath => exact Moves.refl s
    | directive | sweep | report => exact Moves.single hzero rfl
  unfold State.grantPort
  split
  · exact Moves.refl s
  · split
    · exact Moves.ite s (fun hlt => Moves.single (Move.starve _ _ hlt h) rfl) fun _ => hinternal _ _
    · exact Moves.single (Move.starve _ 0 (Nat.zero_le _) h) rfl
    · exact hinternal _ _
    · exact Moves.refl s

theorem State.failDirective_moves : Moves c s s.failDirective := by
  unfold State.failDirective
  split
  · exact s.faultFetch_moves _
  · exact s.endCompletionWrite_moves _ _
  all_goals exact Moves.refl s

theorem State.failSweep_moves (h : mayDefine c) : Moves c s s.failSweep := by
  unfold State.failSweep
  split
  · exact Moves.refl s
  · exact s.failCapture_moves _ _ h
  · exact Moves.after (State.sweepOn_moves _ _ _) (s.recordUnreadable_moves _)
  · exact Moves.after (State.driftOn_moves _ _) (s.driftSettled_moves _)
  · exact s.finishRestore_moves _ _ _ _

theorem State.owesAgain_moves (item : RecordItem) : Moves c s (s.owesAgain item) := by
  cases item with
  | window => exact Moves.of_eq rfl
  | circuit k hits =>
    exact Moves.after (State.oweCircuit_moves _ k) <| s.putCircuit_moves k _
      ⟨rfl, rfl, rfl, fun ⟨hc, _, hv⟩ => ⟨hc, Nat.min_le_left _ _, hv⟩⟩ ⟨rfl, rfl, rfl, rfl, rfl⟩
  | change => exact Moves.refl s

theorem State.setWriter_moves (w : ReportWriter) : Moves c s (s.setWriter w) := Moves.of_eq rfl

theorem State.failReport_moves : Moves c s s.failReport := by
  unfold State.failReport
  split
  · exact Moves.after (State.setWriter_moves _ _) (Moves.ite s (fun _ => Moves.refl s) fun _ => s.owesAgain_moves _)
  · exact Moves.of_eq rfl
  · exact Moves.refl s

theorem State.failInternal_moves (who : Requester) (r : Request) (h : failsAccess c) :
    Moves c s (s.failInternal who r) := by
  have htold : Moves c s ((s.writeFault r.addr who.faultKind 0).raise .busFault) :=
    Moves.after (State.raise_moves _ .busFault) (s.writeFault_moves _ _ _ h)
  refine Moves.ite s (fun _ => Moves.after (State.releaseHeldSweep_moves _) htold) fun _ => ?_
  cases who with
  | passPath => exact htold
  | directive => exact Moves.after (State.failDirective_moves _) htold
  | sweep => exact Moves.after (State.failSweep_moves _ (.inr (.inr h))) htold
  | report => exact Moves.after (State.failReport_moves _) htold

theorem mayAccept_of_failsAccess (h : failsAccess c) : mayAccept c := .inr (.inr (.inr h))

theorem State.failForwarded_moves (h : failsAccess c) : Moves c s s.failForwarded := by
  unfold State.failForwarded
  split
  · exact Moves.after (State.emptyBuffer_moves _ (mayAccept_of_failsAccess h)) <|
      Moves.after (Moves.of_eq rfl) <| Moves.after (State.raise_moves _ .busFault) (s.writeFault_moves _ _ _ h)
  · exact Moves.after (Moves.of_eq rfl) <|
      Moves.after (State.raise_moves _ .busFault) (s.writeFault_moves _ _ _ h)
  · exact Moves.refl s

theorem State.retry_moves (who : Requester) (r : Request) : Moves c s (s.retry who r) := by
  cases who <;> exact Moves.of_eq rfl

theorem State.freePort_moves : Moves c s s.freePort := Moves.of_eq rfl

theorem State.failAccess_moves (h : failsAccess c) : Moves c s s.failAccess := by
  unfold State.failAccess
  split
  · exact Moves.refl s
  · have hinternal : ∀ who r, Moves c s (if r.retry then s.freePort.failInternal who r
        else s.freePort.retry who r) := fun who r => by
      split
      · exact Moves.after (State.failInternal_moves s.freePort who r h) s.freePort_moves
      · exact Moves.after (State.retry_moves s.freePort who r) s.freePort_moves
    dsimp only
    split
    · exact Moves.after (State.failForwarded_moves _ h) s.freePort_moves
    all_goals exact hinternal _ _

/-! ### The Report Unit (R165 to R169) -/

theorem State.startRecord_moves (item : RecordItem) (words : List Word) : Moves c s (s.startRecord item words) :=
  Moves.of_eq rfl

theorem State.startReport_moves (h : c = .reportWriteStart) : Moves c s s.startReport := by
  refine Moves.ite_self s fun _ => ?_
  refine Moves.ite s (fun _ => Moves.of_eq rfl) fun _ => ?_
  split
  · exact Moves.of_eq rfl
  · split
    · rename_i k _
      have htaken : Moves c s { s with report := { s.report with
          owed := Table.set false s.report.owed k false, lastReported := k } } :=
        Moves.single (Move.lastReported _ k h) rfl
      exact Moves.after (State.startRecord_moves _ _ _) <| Moves.after (State.putCircuit_moves _ k _
        ⟨rfl, rfl, rfl, fun ⟨hc, _, hv⟩ => ⟨hc, Nat.zero_le _, hv⟩⟩ ⟨rfl, rfl, rfl, rfl, rfl⟩) htaken
    · exact Moves.refl s

theorem State.finishRecord_moves (item : RecordItem) (overtaken : Bool) (h : c = .reportWordComplete) :
    Moves c s (s.finishRecord item overtaken) := by
  refine Moves.ite s (fun _ => Moves.of_eq rfl) fun _ => ?_
  cases item with
  | window | circuit => exact Moves.single (Move.produce _ h) rfl
  | change => exact Moves.after (State.releaseRecord_moves _ h) (Moves.single (Move.produce _ h) rfl)

theorem State.completeReportWord_moves (h : c = .reportWordComplete) : Moves c s s.completeReportWord := by
  unfold State.completeReportWord
  split
  · unfold State.endRecordWord
    split
    · exact Moves.after (State.finishRecord_moves _ _ _ h) (Moves.of_eq rfl)
    · exact Moves.of_eq rfl
  · exact Moves.refl s

theorem State.completeSummaryWord_moves (h : c = .summaryWordComplete) : Moves c s s.completeSummaryWord := by
  unfold State.completeSummaryWord
  split
  · rename_i base left snapshot _ _
    have hseen : Moves c s.freePort
        (if (left.head?.map Prod.fst) = some 2 then s.freePort.seeSnapshot snapshot else s.freePort) :=
      Moves.ite_self _ fun _ => Moves.single (Move.snapshotSeen _ _ h) rfl
    have hfree : Moves c s s.freePort := Moves.of_eq rfl
    unfold State.endSummaryWord
    dsimp only
    split
    · exact (hfree.trans hseen).trans (Moves.of_eq rfl)
    · exact (hfree.trans hseen).trans (Moves.of_eq rfl)
  · exact Moves.refl s

theorem State.endReportHoldOff_moves : Moves c s s.endReportHoldOff := by
  unfold State.endReportHoldOff
  split
  · exact Moves.of_eq rfl
  all_goals exact Moves.refl s

theorem State.endSummaryHoldOff_moves : Moves c s s.endSummaryHoldOff := by
  unfold State.endSummaryHoldOff
  split
  · exact Moves.of_eq rfl
  all_goals exact Moves.refl s

/-! ### The Trace Monitor (R67, R78) -/

theorem State.endHold_moves : Moves c s s.endHold := by
  unfold State.endHold
  split
  · split
    · exact s.acceptClosing_moves _ _ _ _
    · exact Moves.refl s
  all_goals exact Moves.refl s

theorem State.applyArrival_moves (k : Nat) (a : Arrival) : Moves c s (s.applyArrival k a) :=
  Moves.after (State.evaluateHandedOver_moves _ k _) (Moves.of_eq rfl)

theorem State.consumeArrival_moves : Moves c s s.consumeArrival := by
  unfold State.consumeArrival
  split
  · exact Moves.refl s
  · rename_i a rest harr
    have htake : Moves c s (State.wantSummary { s with trace := { s.trace with arrivals := rest } }) := by
      refine Moves.single (Move.take _) ?_
      have htail : rest = s.essence.arrivals.tail := by simp [State.essence, harr]
      rw [← htail]
      rfl
    exact Moves.after (State.endHold_moves _) <|
      htake.trans (Moves.forSome _ _ (fun t k => t.applyArrival_moves k a) _)

theorem State.expireSilence_moves (ch : Nat) : Moves c s (s.expireSilence ch) := by
  unfold State.expireSilence
  split
  · have hexpired : Moves c s (s.setSilence ch .expired) := Moves.of_eq rfl
    exact hexpired.trans (Moves.forSome _ _ (fun t k => t.evaluateHandedOver_moves k ch) _)
  all_goals exact Moves.refl s

/-! ### The window's timers -/

theorem State.expireDeadline_moves : Moves c s s.expireDeadline := by
  unfold State.expireDeadline
  split
  · exact Moves.after (State.closeWindow_moves _) <| Moves.after (State.raise_moves _ .overtime) <|
      s.setWindowFlags_moves _ _
  · exact Moves.refl s

theorem State.expireSettle_moves : Moves c s s.expireSettle := by
  unfold State.expireSettle
  split
  · exact Moves.after (State.leaveSettlingIfDone_moves _) (Moves.of_eq rfl)
  · exact Moves.refl s

theorem State.expireSteady_moves : Moves c s s.expireSteady :=
  Moves.ite_self s fun _ => Moves.after (State.conclude_moves _) (Moves.of_eq rfl)

theorem State.expireVerifyLimit_moves : Moves c s s.expireVerifyLimit :=
  Moves.ite_self s fun _ => Moves.after (State.conclude_moves _) <|
    (Moves.forEach s _ (fun t k => t.changeVerdict_moves k .silent _) _).trans (State.withVerdict_moves _ _)

/-! ### The Sweep Engine's completions -/

theorem State.completeCaptureRead_moves (data : Word) : Moves c s (s.completeCaptureRead data) := by
  unfold State.completeCaptureRead
  split
  · rename_i k p _ _
    have hkept : Moves c s (s.freePort.mapCircuit k fun r =>
        { r with baseline := some (r.baseline.getD [] ++ [data]) }) :=
      Moves.after (State.putCircuit_moves s.freePort k _ ⟨rfl, rfl, rfl, id⟩ ⟨rfl, rfl, rfl, rfl, rfl⟩)
        (Moves.of_eq rfl)
    exact Moves.ite s (fun _ => Moves.refl s) fun _ =>
      Moves.ite s (fun _ => hkept.trans (State.runJob_moves _ _)) fun _ => hkept.trans (State.finishCapture_moves _ _)
  · exact Moves.refl s

theorem State.takeCloseWord_moves (set : List Nat) (k p : Nat) (words : List Word) (data : Word) :
    Moves c s (s.takeCloseWord set k p words data) :=
  Moves.ite s (fun _ => s.runJob_moves _) fun _ => (s.recordSwept_moves k _).trans (State.sweepOn_moves _ _ _)

theorem State.completeCloseSweepRead_moves (data : Word) : Moves c s (s.completeCloseSweepRead data) := by
  unfold State.completeCloseSweepRead
  split
  · exact Moves.refl s
  · refine Moves.ite s (fun _ => Moves.after (State.releaseHeldSweep_moves _) (Moves.of_eq rfl)) fun _ => ?_
    split
    · exact Moves.after (State.takeCloseWord_moves _ _ _ _ _ _) (Moves.of_eq rfl)
    all_goals exact Moves.refl s

theorem State.completeDriftSweepRead_moves (data : Word) : Moves c s (s.completeDriftSweepRead data) := by
  unfold State.completeDriftSweepRead
  split
  · exact Moves.ite s (fun _ => Moves.refl s) fun _ =>
      Moves.after (State.takeDriftWord_moves _ _ _ _) (Moves.of_eq rfl)
  · exact Moves.refl s

theorem State.completeRestoreWrite_moves : Moves c s s.completeRestoreWrite := by
  unfold State.completeRestoreWrite
  split
  · exact Moves.ite s (fun _ => Moves.refl s) fun _ =>
      Moves.ite s (fun _ => Moves.after (State.runJob_moves _ _) (Moves.of_eq rfl)) fun _ =>
        Moves.after (State.finishRestore_moves _ _ _ _ _) (Moves.of_eq rfl)
  · exact Moves.refl s

theorem State.completeFetchRead_moves (data : Word) : Moves c s (s.completeFetchRead data) := by
  unfold State.completeFetchRead
  split
  · exact Moves.after (State.takeFetchedWord_moves _ _ _) (Moves.of_eq rfl)
  · exact Moves.refl s

theorem State.completeCompletionWrite_moves : Moves c s s.completeCompletionWrite := by
  unfold State.completeCompletionWrite
  split
  · exact Moves.after (State.endCompletionWrite_moves _ _ _) (Moves.of_eq rfl)
  · exact Moves.refl s

end Sys2Proof.Machine
end

section
/-! Chains of moves: the directives, and every command. -/

namespace Sys2Proof.Machine

variable {c : Instr} (s : State)

/-! ### What the passed checks of a LOAD and a RESTORE say (R19, R128) -/

/-- R19: an owner that a LOAD of circuit `k` does not conflict with. -/
theorem filter_ne_eq_none {o : Option Nat} {k : Nat} : o.filter (· != k) = none ↔ o = none ∨ o = some k := by
  cases o <;> simp [Option.filter]

/-- R19: a LOAD conflicts with nothing exactly where its entries and its channel are free or its own. -/
theorem State.loadConflict_eq_none (f : LoadFields) :
    s.loadConflict f = none ↔
      (∀ i ∈ f.entries, (s.mapEntry i).owner = none ∨ (s.mapEntry i).owner = some f.circuit)
        ∧ (s.boundTo f.channel = none ∨ s.boundTo f.channel = some f.circuit) := by
  unfold State.loadConflict
  dsimp only
  split
  · rename_i j hj
    obtain ⟨i, hi, hown⟩ := List.exists_of_findSome?_eq_some hj
    refine iff_of_false (by simp) fun ⟨hfree, _⟩ => ?_
    have hnone := filter_ne_eq_none.mpr (hfree i hi)
    rw [hnone] at hown
    cases hown
  · rename_i hfree
    simp only [List.findSome?_eq_none_iff, filter_ne_eq_none] at hfree
    rw [filter_ne_eq_none]
    exact ⟨fun h => ⟨hfree, h⟩, And.right⟩

/-- R18, R19: a LOAD that no check refuses is in range, taken in the window's and the circuit's state, and in no
conflict. -/
theorem State.loadRefusal_eq_none (h : s.loadRefusal = none) :
    loadRange s.layout s.loadInHand = none
      ∧ loadState s.window.state (s.circuit s.loadInHand.circuit).state = none
      ∧ s.loadConflict s.loadInHand = none := by
  unfold State.loadRefusal at h
  dsimp only at h
  split at h
  · cases h
  · rename_i hrange
    split at h
    · cases h
    · rename_i hstate
      exact ⟨hrange, hstate, by simpa using h⟩

/-- The position of the first match is none exactly where nothing matches. -/
theorem firstPosition_eq_none {p : Nat → Bool} {l : List Nat} : firstPosition p l = none ↔ ∀ x ∈ l, p x = false := by
  simp [firstPosition]

/-- R128: a RESTORE that no check refuses finds room in the restore list, and its circuit not on it. -/
theorem State.restoreRefusal_eq_none (h : s.restoreRefusal = none) :
    circuitField s.directive.chain ∉ s.sweep.restoreList ∧ s.sweep.restoreList.length < Config.restoreRoom := by
  unfold State.restoreRefusal at h
  dsimp only at h
  split at h
  · cases h
  split at h
  · cases h
  split at h
  · cases h
  split at h
  · cases h
  split at h
  · cases h
  rename_i hpos
  split at h
  · cases h
  rename_i hroom
  refine ⟨fun hmem => ?_, by omega⟩
  simpa using firstPosition_eq_none.mp hpos _ hmem

/-! ### What leaves the entry map and the channel map alone -/

@[simp] theorem State.unlistRestore_circuit (k j : Nat) : (s.unlistRestore k).circuit j = s.circuit j := by
  rw [State.unlistRestore_frame]
  rfl

@[simp] theorem State.unlistRestore_mapEntry (k i : Nat) : (s.unlistRestore k).mapEntry i = s.mapEntry i := by
  rw [State.unlistRestore_frame]
  rfl

@[simp] theorem State.unlistRestore_boundTo (k ch : Nat) : (s.unlistRestore k).boundTo ch = s.boundTo ch := by
  rw [State.unlistRestore_frame]
  rfl

@[simp] theorem State.retarget_boundTo (k : Nat) (new : List Nat) (ch : Nat) :
    (s.retarget k new).boundTo ch = s.boundTo ch := by
  rw [State.retarget_frame]
  rfl

@[simp] theorem State.bind_mapEntry (k ch i : Nat) : (s.bind k ch).mapEntry i = s.mapEntry i := by
  rw [State.bind_frame]
  rfl

/-! ### The directives -/

theorem State.setDirectiveStep_moves (st : DirectiveStep) : Moves c s (s.setDirectiveStep st) := Moves.of_eq rfl

theorem State.runDirective_moves (k : DirectiveKind) (refusal : State → Option DirectiveAnswer)
    (effect : State → State) (h : refusal s = none → Moves c s (effect s)) :
    Moves c s (s.runDirective k refusal effect) := by
  refine Moves.ite_self s fun _ => ?_
  split
  · exact s.answerDirective_moves _
  · rename_i hnone
    exact Moves.after (State.answerDirective_moves _ _) (h hnone)

theorem State.overtakeRecord_moves : Moves c s s.overtakeRecord := by
  unfold State.overtakeRecord
  split
  · exact Moves.after (State.setWriter_moves _ _) (s.owesAgain_moves _)
  all_goals exact Moves.refl s

/-- R161: the placed layout and the emptied report ring, with the assemblies zeroed. -/
theorem State.place_moves (l : Option Layout) (p : PassPath) (r : ReportUnit) (h : c = .layout)
    (hr : r = { s.report with producer := r.producer, consumer := r.consumer, rejected := r.rejected }) :
    Moves c s { s with layout := l, pass := p, report := r } := by
  refine Moves.single (Move.layout _ l r.producer h) ?_
  rw [hr]
  rfl

theorem State.wantSummary_moves : Moves c s s.wantSummary := Moves.of_eq rfl

theorem State.oweWindow_moves : Moves c s s.oweWindow := Moves.of_eq rfl

theorem State.acceptLayout_moves (h : c = .layout) : Moves c s s.acceptLayout :=
  Moves.after (State.oweWindow_moves _) <| Moves.after (State.setWindowState_moves _ .quiet) <|
    Moves.after (State.wantSummary_moves _) <| s.overtakeRecord_moves.trans (State.place_moves _ _ _ _ h rfl)

theorem State.acceptPolicy_moves (h : c = .setPolicy) : Moves c s s.acceptPolicy :=
  (s.setMode_moves _ h).trans (Moves.single (Move.enables _ _ h) rfl)

/-- R4: a circuit takes the parameters of a LOAD. -/
theorem State.takeParameters_moves (k : Nat) (f : LoadFields) (h : mayDefine c) :
    Moves c s (s.mapCircuit k fun r => r.takeParameters f) :=
  Moves.single (Move.parameters _ k ((s.circuit k).takeParameters f) ⟨rfl, rfl, rfl, id⟩ h) (s.putCircuit_essence k _)

theorem State.askCapture_moves (k : Nat) :
    Moves c s { s with sweep := { s.sweep with captureRequest := some k } } := Moves.of_eq rfl

theorem State.loadInQuiet_moves (f : LoadFields) (free : s.loadConflict f = none) (h : mayDefine c) :
    Moves c s (s.loadInQuiet f) := by
  obtain ⟨hown, hbound⟩ := (s.loadConflict_eq_none f).mp free
  unfold State.loadInQuiet
  dsimp only
  refine Moves.after (State.startNextJob_moves _) <| Moves.after (State.askCapture_moves _ _) <|
    Moves.after (State.setCircuitState_moves _ _ .loading) <|
    Moves.after (State.putCircuit_moves _ _ _ ⟨rfl, rfl, rfl, id⟩ ⟨rfl, rfl, rfl, rfl, rfl⟩) <|
    Moves.after (State.bind_moves _ _ _ ?_ h) <| Moves.after (State.retarget_moves _ _ _ ?_ h) <|
    Moves.after (State.takeParameters_moves _ _ f h) (s.unlistRestore_moves _)
  · simpa [State.mapCircuit] using hbound
  · simpa [State.mapCircuit] using hown

theorem State.loadEmptyInOpen_moves (f : LoadFields) (free : s.loadConflict f = none) (h : mayDefine c) :
    Moves c s (s.loadEmptyInOpen f) := by
  obtain ⟨hown, hbound⟩ := (s.loadConflict_eq_none f).mp free
  unfold State.loadEmptyInOpen
  dsimp only
  refine Moves.after (State.setWorkMember_moves _ _ _) <| Moves.after (State.setCircuitState_moves _ _ .held) <|
    Moves.after (State.putCircuit_moves _ _ _ ⟨rfl, rfl, rfl, fun ⟨_, hf, hv⟩ => ⟨Nat.zero_le _, hf, hv⟩⟩
      ⟨rfl, rfl, rfl, rfl, rfl⟩) <|
    Moves.after (State.bind_moves _ _ _ ?_ h) <| Moves.after (State.retarget_moves _ _ _ ?_ h) <|
    s.takeParameters_moves _ f h
  · simpa [State.mapCircuit] using hbound
  · simpa [State.mapCircuit] using hown

theorem State.loadHeldInOpen_moves (f : LoadFields) (free : s.loadConflict f = none) (h : mayDefine c) :
    Moves c s (s.loadHeldInOpen f) := by
  obtain ⟨hown, hbound⟩ := (s.loadConflict_eq_none f).mp free
  have htaken := s.takeParameters_moves f.circuit f h
  have hlisted : Moves c s ((State.retarget (s.mapCircuit f.circuit fun r => r.takeParameters f) f.circuit
      f.entries).mapCircuit f.circuit fun r => { r with baseline := none, redeclared := true }) := by
    refine Moves.after (State.putCircuit_moves _ _ _ ⟨rfl, rfl, rfl, id⟩ ⟨rfl, rfl, rfl, rfl, rfl⟩) <|
      Moves.after (State.retarget_moves _ _ _ ?_ h) htaken
    simpa [State.mapCircuit] using hown
  have hbind (t : State) (ht : t.boundTo f.channel = s.boundTo f.channel) : Moves c t
      ((t.bind f.circuit f.channel).mapCircuit f.circuit fun r =>
        { r with reference := none, entryCondition := some .unknown }) := by
    refine Moves.after (State.putCircuit_moves _ _ _ ⟨rfl, rfl, rfl, id⟩ ⟨rfl, rfl, rfl, rfl, rfl⟩) <|
      State.bind_moves _ _ _ ?_ h
    rwa [ht]
  have hlist : Moves c s (if (s.circuit f.circuit).entries = f.entries then
        s.mapCircuit f.circuit fun r => r.takeParameters f
      else (State.retarget (s.mapCircuit f.circuit fun r => r.takeParameters f) f.circuit
        f.entries).mapCircuit f.circuit fun r => { r with baseline := none, redeclared := true }) :=
    Moves.ite s (fun _ => htaken) fun _ => hlisted
  refine hlist.trans (Moves.ite_self' _ fun _ => hbind _ ?_)
  split <;> simp [State.mapCircuit]

theorem State.executeLoad_moves (f : LoadFields) (free : s.loadConflict f = none) (h : mayDefine c) :
    Moves c s (s.executeLoad f) :=
  Moves.ite s
    (fun _ => Moves.after (State.setDirectiveStep_moves _ _) (s.loadInQuiet_moves f free h))
    fun _ => Moves.after (State.answerDirective_moves _ _) <| Moves.after (State.oweCircuit_moves _ _) <|
      Moves.ite s (fun _ => s.loadEmptyInOpen_moves f free h) fun _ => s.loadHeldInOpen_moves f free h

theorem State.runLoad_moves (h : c = .load) : Moves c s s.runLoad := by
  refine Moves.ite_self s fun _ => ?_
  split
  · exact s.answerDirective_moves _
  · rename_i hnone
    exact s.executeLoad_moves _ (s.loadRefusal_eq_none hnone).2.2 (.inl h)

theorem State.acceptDrop_moves (h : c = .drop) : Moves c s s.acceptDrop :=
  Moves.ite s (fun _ => Moves.refl s) fun _ => s.release_moves _ (.inr (.inl h))

theorem State.holdNamed_moves (k : Nat) : Moves c s (s.holdNamed k) := by
  have hjoined := s.setWorkMember_moves (c := c) k true
  unfold State.holdNamed
  dsimp only
  split
  · exact Moves.after (State.setCircuitState_moves _ k .held) <|
      Moves.after (State.putCircuit_moves _ k _ ⟨rfl, rfl, rfl, id⟩ ⟨rfl, rfl, rfl, rfl, rfl⟩) hjoined
  · exact hjoined

theorem State.captureEntry_moves (k : Nat) : Moves c s (s.captureEntry k) :=
  s.putCircuit_moves k _ ⟨rfl, rfl, rfl, fun ⟨_, hf, hv⟩ => ⟨Nat.zero_le _, hf, hv⟩⟩ ⟨rfl, rfl, rfl, rfl, rfl⟩

/-- R101: the times that an OPEN takes, and the window's timers. -/
theorem State.withTimes_moves (w : Window) (limit : Nat) (h : c = .openWindow) (hw : w.number = s.window.number) :
    Moves c s { s with window := w, trace := { s.trace with silenceLimit := limit } } := by
  refine Moves.single (Move.times _ w.settleTime w.verifyLimit w.steadyTime limit h) ?_
  simp only [State.essence, hw]
  rfl

theorem State.acceptOpen_moves (h : c = .openWindow) : Moves c s s.acceptOpen := by
  unfold State.acceptOpen
  dsimp only
  exact Moves.after (State.setWindowState_moves _ .opened) <|
    Moves.trans (Moves.after (Moves.forEach _ _ State.holdNamed_moves _) <|
      Moves.after (State.clearWorkSet_moves _) <| Moves.after (State.setWindowNumber_moves _ _ h) <|
      Moves.after (State.setWindowFlags_moves _ _ _) (Moves.forEach s _ State.captureEntry_moves _))
    (State.withTimes_moves _ _ _ h rfl)

theorem State.markNamed_moves (k : Nat) : Moves c s (s.markNamed k) :=
  Moves.ite s
    (fun _ => Moves.after (State.holdNamed_moves _ k) <|
      s.putCircuit_moves k _ ⟨rfl, rfl, rfl, fun ⟨_, hf, hv⟩ => ⟨Nat.zero_le _, hf, hv⟩⟩ ⟨rfl, rfl, rfl, rfl, rfl⟩)
    fun _ => s.holdNamed_moves k

theorem State.acceptMark_moves : Moves c s s.acceptMark := Moves.forEach s _ State.markNamed_moves _

theorem State.leaveAbandoned_moves (k : Nat) : Moves c s (s.leaveAbandoned k) :=
  Moves.after (State.setCircuitState_moves _ k _) <|
    s.putCircuit_moves k _ ⟨rfl, rfl, rfl, fun ⟨hc, hf, _⟩ => ⟨hc, hf, Nat.zero_le _⟩⟩ ⟨rfl, rfl, rfl, rfl, rfl⟩

theorem State.leaveAccepted_moves (ok : Bool) (k : Nat) : Moves c s (State.leaveAccepted ok s k) :=
  Moves.ite s
    (fun _ => Moves.after (State.setCircuitState_moves _ k .settled) <|
      s.putCircuit_moves k _ ⟨rfl, rfl, rfl, id⟩ ⟨rfl, rfl, rfl, rfl, rfl⟩)
    fun _ => Moves.after (State.setCircuitState_moves _ k .faulted) <|
      s.putCircuit_moves k _ ⟨rfl, rfl, rfl, id⟩ ⟨rfl, rfl, rfl, rfl, rfl⟩

theorem State.stopCloseSweep_moves : Moves c s s.stopCloseSweep := by
  unfold State.stopCloseSweep
  split
  · exact Moves.of_eq rfl
  all_goals exact Moves.refl s

theorem State.stopWindowTimers_moves : Moves c s s.stopWindowTimers :=
  Moves.after (State.stopSilence_moves _) (Moves.of_eq rfl)

theorem State.oweSweepIfOverrun_moves : Moves c s s.oweSweepIfOverrun :=
  Moves.ite_self s fun _ => s.setDemand_moves _

theorem State.clearOverrunIfUnowed_moves : Moves c s s.clearOverrunIfUnowed :=
  Moves.ite_self s fun _ => s.clearOverrun_moves

theorem State.acceptAbandon_moves : Moves c s s.acceptAbandon := by
  unfold State.acceptAbandon
  have hstopped : Moves c s s.stopCloseSweep.stopWindowTimers :=
    Moves.after (State.stopWindowTimers_moves _) s.stopCloseSweep_moves
  exact Moves.after (State.startNextJob_moves _) <| Moves.after (State.markDriftDue_moves _) <|
    Moves.after (State.oweSweepIfOverrun_moves _) <| Moves.after (State.endWindow_moves _) <|
    hstopped.trans (Moves.forEach _ _ State.leaveAbandoned_moves _)

theorem State.acceptAccept_moves : Moves c s s.acceptAccept := by
  unfold State.acceptAccept
  exact Moves.after (State.startNextJob_moves _) <| Moves.after (State.markDriftDue_moves _) <|
    Moves.after (State.clearOverrunIfUnowed_moves _) <| Moves.after (State.endWindow_moves _) <|
    Moves.forEach s _ (fun t k => State.leaveAccepted_moves t _ k) _

theorem State.acceptRestore_moves (h : s.restoreRefusal = none) : Moves c s s.acceptRestore := by
  obtain ⟨hfresh, hroom⟩ := s.restoreRefusal_eq_none h
  exact Moves.after (State.startNextJob_moves _) (Moves.single (Move.enlist _ _ hroom hfresh) rfl)

/-! ### Every command -/

/-- What a command other than a reset comes to: nothing while a reset lasts, otherwise a chain of its moves and then the
start of a summary rewrite that has become due (R168, R175). -/
def Runs (c : Instr) (s t : State) : Prop :=
  (s.inReset = true ∧ t = s) ∨ ∃ u, Moves c s u ∧ t = u.endEvent

theorem live_runs {f : State → State} {t : State} (hf : Moves c s (f s)) (h : live f s = .next t) : Runs c s t := by
  unfold live at h
  cases hr : s.inReset with
  | true => exact .inl ⟨hr, by simpa [hr] using h.symm⟩
  | false => exact .inr ⟨f s, hf, by simpa [hr] using h.symm⟩

/-- A command whose meaning is a block's step runs that step's moves. -/
theorem runs_of_live (f : State → State) {t : State} (h : exec c s = .next t) (hlive : exec c s = live f s)
    (hf : Moves c s (f s)) : Runs c s t := live_runs s hf (hlive.symm.trans h)

/-- A command that executes a directive runs the moves of its effect. -/
theorem runs_of_directive (k : DirectiveKind) (refusal : State → Option DirectiveAnswer) (effect : State → State)
    {t : State} (h : exec c s = .next t) (hlive : exec c s = live (fun s => s.runDirective k refusal effect) s)
    (hf : refusal s = none → Moves c s (effect s)) : Runs c s t :=
  runs_of_live s _ h hlive (s.runDirective_moves k refusal effect hf)

theorem presentWrite_runs {addr : WordAddr} {data : Word} {lanes : Lanes} {m : Master} {t : State}
    (hw : presentsWrite c addr data lanes m) (h : presentWrite addr data lanes m s = .next t) : Runs c s t := by
  unfold presentWrite at h
  split at h
  · cases h
  · exact live_runs s (s.present_moves addr _ m (.inl ⟨addr, data, lanes, m, hw⟩)) h

/-- R168: a summary rewrite commanded where one is due is the one that the end of an event starts. -/
theorem summaryRewriteStart_runs {t : State} (h : exec .summaryRewriteStart s = .next t) :
    Runs .summaryRewriteStart s t := by
  have hlive : live State.rewriteSummary s = .next t := h
  have hrewrite : s.rewriteSummary = s.endEvent := rfl
  unfold live at hlive
  cases hr : s.inReset with
  | true => exact .inl ⟨hr, by simpa [hr] using hlive.symm⟩
  | false =>
    refine .inr ⟨s, Moves.refl s, ?_⟩
    simpa [hr, hrewrite, s.endEvent.endEvent_idle s.endEvent_notDue] using hlive.symm

/-- Every command but the resets is a chain of its moves. -/
theorem exec_runs {t : State} (hreset : c ≠ .reset) (hend : ∀ d b, c ≠ .resetEnd d b) (h : exec c s = .next t) :
    Runs c s t := by
  cases c with
  | reset => exact absurd rfl hreset
  | resetEnd d b => exact absurd rfl (hend d b)
  | connectionWrite => exact presentWrite_runs s (.inl rfl) h
  | landingTagWrite => exact presentWrite_runs s (.inr (.inl rfl)) h
  | closingWord addr data m =>
    exact runs_of_live s (fun s => s.present addr (.write data 0xF) m) h rfl
      (s.present_moves addr _ m (.inl ⟨addr, data, 0xF, m, .inr (.inr (.inl ⟨rfl, rfl⟩))⟩))
  | holdLimitExpiry => exact runs_of_live s State.expireHold h rfl s.expireHold_moves
  | consumerWordWrite => exact presentWrite_runs s (.inr (.inr (.inr (.inl rfl)))) h
  | upstreamWrite => exact presentWrite_runs s (.inr (.inr (.inr (.inr (.inl rfl))))) h
  | upstreamRead addr m =>
    exact runs_of_live s (fun s => s.present addr .read m) h rfl
      (s.present_moves addr _ m (.inr (.inl ⟨addr, m, .inl rfl⟩)))
  | lateErrorAccess addr op m =>
    cases op with
    | read =>
      exact runs_of_live s (fun s => s.present addr .read m) h rfl
        (s.present_moves addr _ m (.inr (.inl ⟨addr, m, .inr rfl⟩)))
    | write => exact presentWrite_runs s (.inr (.inr (.inr (.inr (.inr rfl))))) h
  | portGrant => exact runs_of_live s State.grantPort h rfl (s.grantPort_moves rfl)
  | forwardedWriteComplete =>
    exact runs_of_live s State.completeForwardedWrite h rfl (s.completeForwardedWrite_moves (.inr (.inr (.inl rfl))))
  | forwardedReadComplete data =>
    exact runs_of_live s (fun s => s.completeForwardedRead data) h rfl (s.completeForwardedRead_moves data rfl)
  | downstreamTimeout => exact runs_of_live s State.failAccess h rfl (s.failAccess_moves (.inl rfl))
  | downstreamErrorCompletion => exact runs_of_live s State.failAccess h rfl (s.failAccess_moves (.inr rfl))
  | classify => exact runs_of_live s State.classifyNext h rfl (s.classifyNext_moves rfl)
  | arrivalConsumption => exact runs_of_live s State.consumeArrival h rfl s.consumeArrival_moves
  | silenceExpiry channel => exact runs_of_live s (fun s => s.expireSilence channel.val) h rfl (s.expireSilence_moves _)
  | layout =>
    exact runs_of_directive s .layout State.layoutRefusal State.acceptLayout h rfl (fun _ => s.acceptLayout_moves rfl)
  | setPolicy =>
    exact runs_of_directive s .setPolicy State.policyRefusal State.acceptPolicy h rfl
      (fun _ => s.acceptPolicy_moves rfl)
  | load => exact runs_of_live s State.runLoad h rfl (s.runLoad_moves rfl)
  | drop =>
    exact runs_of_directive s .drop State.dropRefusal State.acceptDrop h rfl (fun _ => s.acceptDrop_moves rfl)
  | openWindow =>
    exact runs_of_directive s .openWindow State.openRefusal State.acceptOpen h rfl (fun _ => s.acceptOpen_moves rfl)
  | mark =>
    exact runs_of_directive s .mark State.markRefusal State.acceptMark h rfl (fun _ => s.acceptMark_moves)
  | close =>
    exact runs_of_directive s .close (fun s => s.refusedUnless .opened) State.closeWindow h rfl
      (fun _ => s.closeWindow_moves)
  | abandon =>
    exact runs_of_directive s .abandon State.abandonRefusal State.acceptAbandon h rfl (fun _ => s.acceptAbandon_moves)
  | accept =>
    exact runs_of_directive s .accept (fun s => s.refusedUnless .concluded) State.acceptAccept h rfl
      (fun _ => s.acceptAccept_moves)
  | recheck =>
    exact runs_of_directive s .recheck (fun s => s.refusedUnless .concluded)
      (fun s => s.enterVerifying Circuit.rechecked) h rfl (fun _ => s.enterVerifying_moves _)
  | restore =>
    exact runs_of_directive s .restore State.restoreRefusal State.acceptRestore h rfl (s.acceptRestore_moves)
  | deadlineExpiry => exact runs_of_live s State.expireDeadline h rfl s.expireDeadline_moves
  | settleExpiry => exact runs_of_live s State.expireSettle h rfl s.expireSettle_moves
  | steadyExpiry => exact runs_of_live s State.expireSteady h rfl s.expireSteady_moves
  | verifyLimitExpiry => exact runs_of_live s State.expireVerifyLimit h rfl s.expireVerifyLimit_moves
  | captureReadComplete data =>
    exact runs_of_live s (fun s => s.completeCaptureRead data) h rfl (s.completeCaptureRead_moves data)
  | closeSweepReadComplete data =>
    exact runs_of_live s (fun s => s.completeCloseSweepRead data) h rfl (s.completeCloseSweepRead_moves data)
  | driftSweepReadComplete data =>
    exact runs_of_live s (fun s => s.completeDriftSweepRead data) h rfl (s.completeDriftSweepRead_moves data)
  | restoreWriteComplete => exact runs_of_live s State.completeRestoreWrite h rfl s.completeRestoreWrite_moves
  | directiveFetchReadComplete data =>
    exact runs_of_live s (fun s => s.completeFetchRead data) h rfl (s.completeFetchRead_moves data)
  | directiveCompletionWriteEnd =>
    exact runs_of_live s State.completeCompletionWrite h rfl s.completeCompletionWrite_moves
  | reportWriteStart => exact runs_of_live s State.startReport h rfl (s.startReport_moves rfl)
  | reportWordComplete => exact runs_of_live s State.completeReportWord h rfl (s.completeReportWord_moves rfl)
  | reportHoldOffExpiry => exact runs_of_live s State.endReportHoldOff h rfl s.endReportHoldOff_moves
  | summaryRewriteStart => exact summaryRewriteStart_runs s h
  | summaryWordComplete => exact runs_of_live s State.completeSummaryWord h rfl (s.completeSummaryWord_moves rfl)
  | summaryHoldOffExpiry => exact runs_of_live s State.endSummaryHoldOff h rfl s.endSummaryHoldOff_moves
  | attnPulseEnd => exact runs_of_live s State.endPulse h rfl (Moves.of_eq rfl)

end Sys2Proof.Machine
end

section
/-! Settles O53, O56 and O60: the invariants of the maps, the bounds and the journal, once per move. -/

namespace Sys2Proof.Machine

/-! ### The maps (R10, R11, R13) -/

/-- R10, R11, R13: owners, bindings and fenced flags agree with the circuits and the mode. -/
structure Essence.MapsAgree (e : Essence) : Prop where
  entries : ∀ i k, (e.mapEntry i).owner = some k ↔ i ∈ (e.circuit k).entries
  channels : ∀ ch k, e.boundTo ch = some k ↔ (e.circuit k).channel = some ch
  fences : ∀ i, (e.mapEntry i).fenced = e.fenceRule (e.mapEntry i).owner

/-- The three agreements of a state are those of its items. -/
theorem State.mapsAgree_iff (s : State) :
    s.essence.MapsAgree ↔ s.entriesAgree ∧ s.channelsAgree ∧ s.fencesAgree :=
  ⟨fun ⟨he, hc, hf⟩ => ⟨he, hc, hf⟩, fun ⟨he, hc, hf⟩ => ⟨he, hc, hf⟩⟩

/-- A field that the new record has as the old one had it reads alike in every circuit. -/
theorem update_field {β : Type} (f : Nat → Circuit) (k : Nat) {r : Circuit} (g : Circuit → β) (hg : g r = g (f k))
    (j : Nat) : g (Function.update f k r j) = g (f j) := by
  by_cases hj : j = k
  · subst hj
    simpa using hg
  · simp [hj]

/-- The fence rule reads the mode and the circuits' states only. -/
theorem Essence.fenceRule_congr {e e' : Essence} (hmode : e'.mode = e.mode)
    (hstate : ∀ j, (e'.circuit j).state = (e.circuit j).state) (o : Option Nat) :
    e'.fenceRule o = e.fenceRule o := by
  cases o <;> simp [Essence.fenceRule, hmode, hstate]

/-- A record that keeps its place changes no agreement. -/
theorem Essence.MapsAgree.update {e : Essence} (h : e.MapsAgree) {k : Nat} {r : Circuit}
    (hr : (e.circuit k).keepsPlace r) : (e.putCircuit k r).MapsAgree := by
  obtain ⟨hstate, hentries, hchannel, -⟩ := hr
  refine ⟨fun i j => ?_, fun ch j => ?_, fun i => ?_⟩
  · rw [show ((e.putCircuit k r).circuit j).entries = (e.circuit j).entries from
      update_field e.circuit k Circuit.entries hentries j]
    exact h.entries i j
  · rw [show ((e.putCircuit k r).circuit j).channel = (e.circuit j).channel from
      update_field e.circuit k Circuit.channel hchannel j]
    exact h.channels ch j
  · exact (h.fences i).trans (Essence.fenceRule_congr (e := e) (e' := e.putCircuit k r) rfl
      (update_field e.circuit k Circuit.state hstate) _).symm

/-- R14: flags rewritten with a change of state follow the rule, and flags of other owners' entries follow it still. -/
theorem Essence.MapsAgree.restate {e : Essence} (h : e.MapsAgree) (k : Nat) (st : CircuitState) :
    (e.restate k st).MapsAgree := by
  have howner (i : Nat) : ((e.restate k st).mapEntry i).owner = (e.mapEntry i).owner := by
    dsimp only [Essence.restate]
    split <;> rfl
  refine ⟨fun i j => ?_, fun ch j => ?_, fun i => ?_⟩
  · rw [howner, show ((e.restate k st).circuit j).entries = (e.circuit j).entries from
      update_field e.circuit k Circuit.entries (by rfl) j]
    exact h.entries i j
  · rw [show ((e.restate k st).circuit j).channel = (e.circuit j).channel from
      update_field e.circuit k Circuit.channel (by rfl) j]
    exact h.channels ch j
  · rw [howner]
    by_cases hi : i ∈ (e.circuit k).entries
    · simp only [Essence.restate, hi, if_true]
      rfl
    · simp only [Essence.restate, hi, if_false]
      refine (h.fences i).trans ?_
      cases ho : (e.mapEntry i).owner with
      | none => rfl
      | some j =>
        have hj : j ≠ k := fun hj => hi ((h.entries i k).mp (hj ▸ ho))
        simp [Essence.fenceRule, Essence.putCircuit, hj]

/-- R20, R22, R23: entries taken over from no other circuit are owned by the circuit that now lists them. -/
theorem Essence.MapsAgree.retarget {e : Essence} (h : e.MapsAgree) (k : Nat) (new : List Nat)
    (own : ∀ i ∈ new, (e.mapEntry i).owner = none ∨ (e.mapEntry i).owner = some k) :
    (e.retarget k new).MapsAgree := by
  have hrule : ∀ o, (e.retarget k new).fenceRule o = e.fenceRule o :=
    Essence.fenceRule_congr rfl (update_field e.circuit k Circuit.state rfl)
  refine ⟨fun i j => ?_, fun ch j => ?_, fun i => ?_⟩
  · have hold := h.entries i j
    dsimp only [Essence.retarget, Essence.putCircuit]
    by_cases hj : j = k
    · subst hj
      by_cases hn : i ∈ new <;> by_cases ho : i ∈ (e.circuit j).entries <;> simp [hn, ho, hold]
    · have hother : i ∈ new → i ∉ (e.circuit j).entries := fun hn hi => by
        rcases own i hn with hnone | hk
        · simp [hold.mpr hi] at hnone
        · exact hj (by simpa [hold.mpr hi] using hk)
      have hmine : i ∈ (e.circuit k).entries → i ∉ (e.circuit j).entries := fun ho hi => by
        have hk := (h.entries i k).mpr ho
        exact hj (by simpa [hold.mpr hi] using hk)
      by_cases hn : i ∈ new <;> by_cases ho : i ∈ (e.circuit k).entries <;>
        simp_all [Ne.symm hj]
  · rw [show ((e.retarget k new).circuit j).channel = (e.circuit j).channel from
      update_field e.circuit k Circuit.channel (by rfl) j]
    exact h.channels ch j
  · rw [hrule]
    dsimp only [Essence.retarget]
    split
    · rfl
    split
    · rfl
    · exact h.fences i

/-- R11: a channel taken over from no other circuit names the circuit that now has it. -/
theorem Essence.MapsAgree.bind {e : Essence} (h : e.MapsAgree) (k ch : Nat)
    (own : e.boundTo ch = none ∨ e.boundTo ch = some k) : (e.bind k ch).MapsAgree := by
  refine ⟨fun i j => ?_, fun m j => ?_, fun i => ?_⟩
  · rw [show ((e.bind k ch).circuit j).entries = (e.circuit j).entries from
      update_field e.circuit k Circuit.entries (by rfl) j]
    exact h.entries i j
  · have hold := h.channels m j
    have hk := h.channels m k
    dsimp only [Essence.bind, Essence.putCircuit]
    by_cases hj : j = k
    · subst hj
      by_cases hm : m = ch
      · simp [hm]
      · by_cases ho : (e.circuit j).channel = some m <;> simp [hm, ho, Ne.symm hm, hold]
    · by_cases hm : m = ch
      · subst hm
        have hfree : (e.circuit j).channel ≠ some m := fun hc => by
          rcases own with hnone | hbound
          · simp [hold.mpr hc] at hnone
          · exact hj (by simpa [hold.mpr hc] using hbound)
        simp [hj, hfree, Ne.symm hj]
      · by_cases ho : (e.circuit k).channel = some m
        · have hne : (e.circuit j).channel ≠ some m := fun hc => hj (by simpa [hold.mpr hc] using hk.mpr ho)
          simp [hm, ho, hj, hne]
        · simp [hm, ho, hj, hold]
  · exact (h.fences i).trans (Essence.fenceRule_congr (e := e) (e' := e.bind k ch) rfl
      (update_field e.circuit k Circuit.state rfl) _).symm

/-- R17: a released circuit lists no entry and has no channel, and none names it. -/
theorem Essence.MapsAgree.release {e : Essence} (h : e.MapsAgree) (k : Nat) : (e.release k).MapsAgree := by
  refine ⟨fun i j => ?_, fun ch j => ?_, fun i => ?_⟩
  · have hold := h.entries i j
    have hk := h.entries i k
    dsimp only [Essence.release, Essence.putCircuit]
    by_cases hj : j = k
    · subst hj
      by_cases hi : i ∈ (e.circuit j).entries <;> simp [hi, hold]
    · by_cases hi : i ∈ (e.circuit k).entries
      · have hne : i ∉ (e.circuit j).entries := fun hji => hj (by simpa [hold.mpr hji] using hk.mpr hi)
        simp [hi, hj, hne]
      · simp [hi, hj, hold]
  · have hold := h.channels ch j
    have hk := h.channels ch k
    dsimp only [Essence.release, Essence.putCircuit]
    by_cases hj : j = k
    · subst hj
      by_cases hc : (e.circuit j).channel = some ch <;> simp [hc, hold]
    · by_cases hc : (e.circuit k).channel = some ch
      · have hne : (e.circuit j).channel ≠ some ch := fun hjc => hj (by simpa [hold.mpr hjc] using hk.mpr hc)
        simp [hc, hj, hne]
      · simp [hc, hj, hold]
  · by_cases hi : i ∈ (e.circuit k).entries
    · simp [Essence.release, hi, Essence.fenceRule]
    · simp only [Essence.release, hi, if_false]
      refine (h.fences i).trans ?_
      cases ho : (e.mapEntry i).owner with
      | none => rfl
      | some j =>
        have hj : j ≠ k := fun hj => hi ((h.entries i k).mp (hj ▸ ho))
        simp [Essence.fenceRule, Essence.putCircuit, hj]

/-- Every move keeps the maps in agreement with the circuits and the mode. -/
theorem Move.keeps_mapsAgree {c : Instr} {e e' : Essence} (m : Move c e e') (h : e.MapsAgree) : e'.MapsAgree := by
  cases m with
  | edit k r hr _ => exact h.update hr
  | restate k st => exact h.restate k st
  | parameters k r hr _ => exact h.update hr
  | retarget k new own _ => exact h.retarget k new own
  | bind k ch own _ => exact h.bind k ch own
  | release k _ => exact h.release k
  | mode m _ => exact ⟨h.entries, h.channels, fun i => rfl⟩
  | _ => exact ⟨h.entries, h.channels, h.fences⟩

/-! ### The bounds and the journal (R8, R41, R48, R49, R66, R118) -/

/-- R48, R49: every record held, oldest first. -/
def Essence.sequence (e : Essence) : List (BitVec 16) :=
  (e.judged.map Judged.record ++ e.waiting).map ChangeRecord.seq

/-- R49: `n` consecutive numbers, the last one before `next`. -/
def consecutive (next : BitVec 16) (n : Nat) : List (BitVec 16) :=
  (List.range n).map fun k => next - BitVec.ofNat 16 n + BitVec.ofNat 16 k

/-- One number more at the end. -/
theorem consecutive_succ (next : BitVec 16) (n : Nat) :
    consecutive (next + 1) (n + 1) = consecutive next n ++ [next] := by
  simp only [consecutive, List.range_succ, List.map_append, List.map_cons, List.map_nil]
  congr 1
  · refine List.map_congr_left fun k _ => ?_
    bv_omega
  · congr 1
    bv_omega

/-- One number less at the front. -/
theorem consecutive_tail (next : BitVec 16) (n : Nat) : (consecutive next (n + 1)).tail = consecutive next n := by
  simp only [consecutive, List.range_succ_eq_map, List.map_cons, List.tail_cons, List.map_map]
  refine List.map_congr_left fun k _ => ?_
  simp only [Function.comp_apply, Nat.succ_eq_add_one]
  bv_omega

/-- R8, R41, R48, R49, R66, R118: the bounds of counts and lists, and the order of the journal. -/
structure Essence.Bounded (e : Essence) : Prop where
  counts : ∀ k, (e.circuit k).countsBounded
  starvation : e.starvation ≤ Config.starvationLimit
  arrivals : e.arrivals.length ≤ Config.arrivalRoom
  restores : e.restoreList.length ≤ Config.restoreRoom
  distinct : e.restoreList.Nodup
  room : e.judged.length + e.waiting.length ≤ Config.journalRoom
  order : e.sequence = consecutive e.nextSeq (e.judged.length + e.waiting.length)

/-- The bounds of a state are those of its items. -/
theorem State.bounded_iff (s : State) : s.essence.Bounded ↔ s.withinBounds ∧ s.journalInOrder :=
  ⟨fun ⟨hc, hs, ha, hr, hd, hj, ho⟩ => ⟨⟨hc, hs, ha, hr, hd⟩, hj, ho⟩,
    fun ⟨⟨hc, hs, ha, hr, hd⟩, hj, ho⟩ => ⟨hc, hs, ha, hr, hd, hj, ho⟩⟩

/-- Counts that stay bounded in the new record are bounded in every circuit. -/
theorem Essence.Bounded.counts_update {e : Essence} (h : e.Bounded) (k : Nat) {r : Circuit}
    (hr : (e.circuit k).countsBounded → r.countsBounded) (j : Nat) :
    (Function.update e.circuit k r j).countsBounded := by
  by_cases hj : j = k
  · subst hj
    simpa using hr (h.counts j)
  · simpa [hj] using h.counts j

/-- R17: a release keeps the bounds; the restore list only gets shorter. -/
theorem Essence.Bounded.release {e : Essence} (h : e.Bounded) (k : Nat) : (e.release k).Bounded := by
  have hsub : (e.restoreList.filter (· != k)).Sublist e.restoreList := List.filter_sublist
  exact { h with
    counts := h.counts_update k fun ⟨_, hf, _⟩ => ⟨Nat.zero_le _, hf, Nat.zero_le _⟩
    restores := hsub.length_le.trans h.restores
    distinct := h.distinct.sublist hsub }

/-- R48: a record stored keeps the journal in order. -/
theorem Essence.Bounded.store {e : Essence} (h : e.Bounded) (r : ChangeRecord)
    (room : e.judged.length + e.waiting.length < Config.journalRoom) : (e.store r).Bounded := by
  have hlen : (e.store r).judged.length + (e.store r).waiting.length = e.judged.length + e.waiting.length + 1 := by
    simp [Essence.store, ← Nat.add_assoc]
  have hseq : (e.store r).sequence = e.sequence ++ [e.nextSeq] := by simp [Essence.store, Essence.sequence]
  refine { h with room := ?_, order := ?_ }
  · rw [hlen]
    exact room
  · rw [hseq, h.order, hlen]
    exact (consecutive_succ _ _).symm

/-- R57: a record classified keeps the journal in order. -/
theorem Essence.Bounded.classify {e : Essence} (h : e.Bounded) (j : Judged) (rest : List ChangeRecord)
    (hw : e.waiting = j.record :: rest) : (e.classify j rest).Bounded := by
  have hlen : (e.classify j rest).judged.length + (e.classify j rest).waiting.length
      = e.judged.length + e.waiting.length := by
    simp [Essence.classify, hw]
    omega
  have hseq : (e.classify j rest).sequence = e.sequence := by simp [Essence.classify, Essence.sequence, hw]
  refine { h with room := ?_, order := ?_ }
  · rw [hlen]
    exact h.room
  · rw [hseq, h.order, hlen]
    rfl

/-- R50: the oldest record released keeps the journal in order. -/
theorem Essence.Bounded.dismiss {e : Essence} (h : e.Bounded) :
    Essence.Bounded { e with judged := e.judged.tail } := by
  cases hj : e.judged with
  | nil =>
    have he : ({ e with judged := [] } : Essence) = e := by rw [← hj]
    rw [List.tail_nil, he]
    exact h
  | cons j rest =>
    have hroom := h.room
    have horder := h.order
    have hlen : e.judged.length + e.waiting.length = rest.length + e.waiting.length + 1 := by
      simp only [hj, List.length_cons]
      omega
    rw [hlen] at hroom horder
    refine { h with room := Nat.le_of_succ_le hroom, order := ?_ }
    have htail := congrArg List.tail horder
    rw [consecutive_tail] at htail
    simpa [Essence.sequence, hj] using htail

/-- Every move keeps the bounds and the order of the journal. -/
theorem Move.keeps_bounded {c : Instr} {e e' : Essence} (m : Move c e e') (h : e.Bounded) : e'.Bounded := by
  cases m with
  | edit k r hr _ => exact { h with counts := h.counts_update k hr.2.2.2 }
  | parameters k r hr _ => exact { h with counts := h.counts_update k hr.2.2.2 }
  | restate k st => exact { h with counts := h.counts_update k id }
  | retarget k new _ _ => exact { h with counts := h.counts_update k id }
  | bind k ch _ _ => exact { h with counts := h.counts_update k id }
  | release k _ => exact h.release k
  | starve n hn _ => exact { h with starvation := hn }
  | store r room _ => exact h.store r room
  | classify j rest hw _ => exact h.classify j rest hw
  | dismiss _ => exact h.dismiss
  | push a room => exact { h with arrivals := by simpa using room }
  | take =>
    have hlen : e.arrivals.tail.length ≤ e.arrivals.length := by simp
    exact { h with arrivals := hlen.trans h.arrivals }
  | unlist l hl => exact { h with restores := hl.length_le.trans h.restores, distinct := h.distinct.sublist hl }
  | enlist k room fresh =>
    have hdistinct : (e.restoreList ++ [k]).Nodup := by
      rw [List.nodup_append_comm]
      exact List.nodup_cons.mpr ⟨fresh, h.distinct⟩
    exact { h with restores := by simpa using room, distinct := hdistinct }
  | _ => exact { h with }

/-! ### Steps -/

/-- What every move keeps, every chain of moves keeps. -/
theorem Moves.keeps {c : Instr} {P : Essence → Prop} (hP : ∀ e e', Move c e e' → P e → P e') {s t : State}
    (h : Moves c s t) (hs : P s.essence) : P t.essence := by
  unfold Moves at h
  generalize t.essence = e at h
  induction h with
  | refl => exact hs
  | tail _ hm ih => exact hP _ _ hm ih

/-- What holds at reset and every move keeps, whatever the clock's and the reset's own fields and the generation are,
every step keeps. -/
theorem step_keeps {P : Essence → Prop} (hP : ∀ c e e', Move c e e' → P e → P e')
    (hclock : ∀ e b st n g, P e → P { e with inReset := b, straps := st, prescale := n, generation := g })
    (hreset : P State.reset.essence) {s t : State} (h : step s = .next t) (hs : P s.essence) : P t.essence := by
  unfold step at h
  split at h
  · have ht : t = s.passPeriod := by simpa using h.symm
    subst ht
    have hpass : s.passPeriod.essence = { s.essence with prescale := s.passPeriod.prescale } := by
      unfold State.passPeriod
      dsimp only
      split
      · rfl
      split <;> rfl
    rw [hpass]
    exact hclock _ s.inReset s.straps _ s.report.generation hs
  · rename_i c rest _
    by_cases hr : c = .reset
    · subst hr
      have ht : t = State.enterReset { s with pending := rest } := by cases h; rfl
      subst ht
      exact hclock _ true s.straps 0 0 hreset
    by_cases he : ∃ d b, c = .resetEnd d b
    · obtain ⟨d, b, rfl⟩ := he
      have ht : t = if s.inReset then State.leaveReset { s with pending := rest } d b
          else { s with pending := rest } := by cases h; rfl
      subst ht
      split
      · exact hclock _ false { dring := d, bord := b } 0 0 hreset
      · exact hs
    · rcases exec_runs _ hr (fun d b hc => he ⟨d, b, hc⟩) h with ⟨_, rfl⟩ | ⟨u, hu, rfl⟩
      · exact hs
      · have hend : u.endEvent.essence = { u.essence with generation := u.endEvent.report.generation } := by
          rw [State.endEvent_frame]
          rfl
        rw [hend]
        exact hclock _ u.inReset u.straps u.prescale _ (hu.keeps (hP c) hs)

end Sys2Proof.Machine
end

section
/-! Settles O53, O56, O5 and O60: the invariants kept by every step, and the reset state. -/

namespace Sys2Proof.Machine

/-! ### The reset state -/

theorem reset_circuit (k : Nat) : State.reset.circuit k = {} := rfl

theorem reset_mapEntry (i : Nat) : State.reset.mapEntry i = {} := rfl

theorem reset_boundTo (ch : Nat) : State.reset.boundTo ch = none := rfl

/-- R16: after reset all 512 circuits are EMPTY. -/
theorem reset_count (st : CircuitState) : State.reset.count st = if st = .empty then 512 else 0 := by
  cases st <;> rfl

/-- R16: the circuits in a state, counted one by one after reset. -/
theorem reset_circuitsWhere (st : CircuitState) :
    (State.reset.circuitsWhere fun r => decide (r.state = st)).length = if st = .empty then 512 else 0 := by
  have hwhere : (State.reset.circuitsWhere fun r => decide (r.state = st))
      = (List.range Config.circuits).filter fun _ => decide (CircuitState.empty = st) := rfl
  rw [hwhere]
  by_cases h : st = .empty
  · simp [h, Config.circuits]
  · simp [h, Ne.symm h]

/-- R10, R11, R13: after reset no circuit lists an entry or has a channel, and nothing is fenced. -/
theorem reset_mapsAgree : State.reset.essence.MapsAgree := by
  refine ⟨fun i k => ?_, fun ch k => ?_, fun i => rfl⟩
  · exact iff_of_false (by simp [State.essence, reset_mapEntry]) (by simp [State.essence, reset_circuit])
  · exact iff_of_false (by simp [State.essence, reset_boundTo]) (by simp [State.essence, reset_circuit])

/-- After reset every count is 0 and every list empty. -/
theorem reset_bounded : State.reset.essence.Bounded where
  counts := fun _ => ⟨Nat.zero_le _, Nat.zero_le _, Nat.zero_le _⟩
  starvation := Nat.zero_le _
  arrivals := Nat.zero_le _
  restores := Nat.zero_le _
  distinct := List.nodup_nil
  room := Nat.zero_le _
  order := rfl

/-- Settles O5: every item of the reset state is read off its definition. -/
theorem resetValues : Obligations.ResetValues := by
  unfold Obligations.ResetValues
  refine ⟨fun _ => rfl, fun _ => rfl, fun _ => rfl, rfl, reset_count, rfl, rfl, rfl, fun _ => rfl, fun _ => rfl, rfl,
    rfl, rfl, rfl, rfl, fun _ => rfl, rfl, rfl, rfl, rfl, rfl, rfl, rfl, rfl, fun _ => rfl, rfl, rfl, rfl, rfl⟩

/-- Settles O60: no circuit is loaded, nothing is held, and every timer and writer rests. -/
theorem resetMeetsInvariants : Obligations.ResetMeetsInvariants := by
  unfold Obligations.ResetMeetsInvariants
  obtain ⟨hentries, hchannels, hfences⟩ := State.reset.mapsAgree_iff.mp reset_mapsAgree
  obtain ⟨hbounds, hjournal⟩ := State.reset.bounded_iff.mp reset_bounded
  have htables : State.reset.tablesCanonical := by unfold State.tablesCanonical; decide
  have hnumbers : State.reset.numbersInRange := by
    refine ⟨fun i c h => ?_, fun ch c h => ?_, trivial, fun c h => ?_, fun c h => ?_⟩ <;> cases h
  have hcounts : State.reset.countsAgree := fun st => (reset_count st).trans (reset_circuitsWhere st).symm
  have hassured : State.reset.assuredAgrees := rfl
  have hevidence : State.reset.evidenceSound := by
    refine ⟨fun ch => ⟨Nat.zero_le _, iff_of_true rfl rfl, fun h => ?_, fun p h => ?_⟩, fun c p h => ?_⟩ <;> cases h
  have hwindow : State.reset.windowAgrees := ⟨iff_of_true rfl rfl, by decide⟩
  have hverdicts : State.reset.verdictsSettled := ⟨nofun, nofun⟩
  have htimers : State.reset.timersAgree := ⟨fun _ => rfl, fun _ => rfl, fun _ _ => rfl, fun _ => rfl⟩
  have hwriter : State.reset.oneWriter := by unfold State.oneWriter; decide
  have hoverrun : State.reset.overrunAgrees := by unfold State.overrunAgrees; decide
  exact ⟨htables, hentries, hchannels, hfences, hnumbers, hcounts, hassured, hevidence, hbounds, hjournal, hwindow,
    hverdicts, htimers, trivial, hwriter, hoverrun, rfl⟩

/-! ### What every step keeps -/

/-- R13: a fenced flag is set exactly where its owner's state is fenced in the mode in force. -/
theorem fences_iff (m : Mode) (st : CircuitState) :
    fences m st = true ↔ st ∈ [.pending, .confirmed, .degraded, .broken, .silent, .restoring]
      ∨ (m = .guard ∧ st ∈ [.loading, .settled, .drifted, .faulted]) := by
  cases m <;> cases st <;> decide

/-- Settles O53: every move keeps the agreements, so every step does. -/
theorem mapsFollowCircuits : Obligations.MapsFollowCircuits := by
  unfold Obligations.MapsFollowCircuits
  intro s t hentries hchannels hfences h
  have ht : t.essence.MapsAgree :=
    step_keeps (P := Essence.MapsAgree) (fun c e e' m => m.keeps_mapsAgree)
      (fun e b st n g he => ⟨he.entries, he.channels, he.fences⟩) reset_mapsAgree h
      (s.mapsAgree_iff.mpr ⟨hentries, hchannels, hfences⟩)
  obtain ⟨te, tc, tf⟩ := t.mapsAgree_iff.mp ht
  refine ⟨te, tc, tf, fun i => ?_⟩
  rw [tf i]
  cases ho : (t.mapEntry i).owner with
  | none => simp [State.fenceRule]
  | some c => simpa [State.fenceRule] using fences_iff t.store.mode (t.circuit c).state

/-- Settles O56: every move keeps the bounds and the order of the journal, so every step does. -/
theorem boundsAndJournalOrderKept : Obligations.BoundsAndJournalOrderKept := by
  unfold Obligations.BoundsAndJournalOrderKept
  intro s t hbounds hjournal h
  exact t.bounded_iff.mp <| step_keeps (P := Essence.Bounded) (fun c e e' m => m.keeps_bounded)
    (fun e b st n g he => { he with }) reset_bounded h (s.bounded_iff.mpr ⟨hbounds, hjournal⟩)

end Sys2Proof.Machine
end

section
/-! Settles O59: what every chain of moves of a command leaves as it was. -/

namespace Sys2Proof.Machine

/-- What a command leaves as it was, unless it is one that the manual names for it. -/
structure Kept (c : Instr) (e e' : Essence) : Prop where
  clock : e'.inReset = e.inReset ∧ e'.straps = e.straps ∧ e'.prescale = e.prescale
  generation : e'.generation = e.generation
  layout : c ≠ .layout → e'.layout = e.layout
  policy : c ≠ .setPolicy → e'.mode = e.mode ∧ e'.enables = e.enables
  number : c ≠ .openWindow → e'.number = e.number
  times : c ≠ .openWindow → e'.settleTime = e.settleTime ∧ e'.verifyLimit = e.verifyLimit
    ∧ e'.steadyTime = e.steadyTime ∧ e'.silenceLimit = e.silenceLimit
  definitions : ¬ mayDefine c → ∀ k, (e.circuit k).sameParameters (e'.circuit k)
    ∧ (e'.circuit k).entries = (e.circuit k).entries ∧ (e'.circuit k).channel = (e.circuit k).channel
  owners : ¬ mayDefine c → ∀ i, (e'.mapEntry i).owner = (e.mapEntry i).owner
  bindings : ¬ mayDefine c → ∀ ch, e'.boundTo ch = e.boundTo ch
  fault : ¬ failsAccess c → e'.fault = e.fault
  starvation : c ≠ .portGrant → e'.starvation = e.starvation
  nextSeq : ¬ mayAccept c → e'.nextSeq = e.nextSeq
  waiting : ¬ mayAccept c → c ≠ .classify → e'.waiting = e.waiting
  judged : c ≠ .classify → c ≠ .reportWordComplete → e'.judged = e.judged
  producer : c ≠ .layout → c ≠ .reportWordComplete → e'.producer = e.producer
  lastReported : c ≠ .reportWriteStart → e'.lastReported = e.lastReported
  pending : (∀ d, c ≠ .forwardedReadComplete d) → ∀ n, e.pending.getLsbD n = true → e'.pending.getLsbD n = true
  unseen : c ≠ .summaryWordComplete → ∀ n, e.unseen.getLsbD n = true → e'.unseen.getLsbD n = true

variable {c : Instr} {e e' e'' : Essence}

theorem Kept.refl (c : Instr) (e : Essence) : Kept c e e where
  clock := ⟨rfl, rfl, rfl⟩
  generation := rfl
  layout _ := rfl
  policy _ := ⟨rfl, rfl⟩
  number _ := rfl
  times _ := ⟨rfl, rfl, rfl, rfl⟩
  definitions _ _ := ⟨⟨rfl, rfl, rfl, rfl, rfl⟩, rfl, rfl⟩
  owners _ _ := rfl
  bindings _ _ := rfl
  fault _ := rfl
  starvation _ := rfl
  nextSeq _ := rfl
  waiting _ _ := rfl
  judged _ _ := rfl
  producer _ _ := rfl
  lastReported _ := rfl
  pending _ _ h := h
  unseen _ _ h := h

theorem Circuit.sameParameters.trans {r r' r'' : Circuit} (h : r.sameParameters r') (h' : r'.sameParameters r'') :
    r.sameParameters r'' := by
  obtain ⟨a, b, c, d, f⟩ := h
  obtain ⟨a', b', c', d', f'⟩ := h'
  exact ⟨a'.trans a, b'.trans b, c'.trans c, d'.trans d, f'.trans f⟩

theorem Kept.trans (h : Kept c e e') (h' : Kept c e' e'') : Kept c e e'' where
  clock := by
    obtain ⟨hr, hs, hp⟩ := h.clock
    obtain ⟨hr', hs', hp'⟩ := h'.clock
    exact ⟨hr'.trans hr, hs'.trans hs, hp'.trans hp⟩
  generation := h'.generation.trans h.generation
  layout hc := (h'.layout hc).trans (h.layout hc)
  policy hc := ⟨(h'.policy hc).1.trans (h.policy hc).1, (h'.policy hc).2.trans (h.policy hc).2⟩
  number hc := (h'.number hc).trans (h.number hc)
  times hc := by
    obtain ⟨hs, hv, hy, hl⟩ := h.times hc
    obtain ⟨hs', hv', hy', hl'⟩ := h'.times hc
    exact ⟨hs'.trans hs, hv'.trans hv, hy'.trans hy, hl'.trans hl⟩
  definitions hc k := by
    obtain ⟨hp, he, hch⟩ := h.definitions hc k
    obtain ⟨hp', he', hch'⟩ := h'.definitions hc k
    exact ⟨hp.trans hp', he'.trans he, hch'.trans hch⟩
  owners hc i := (h'.owners hc i).trans (h.owners hc i)
  bindings hc ch := (h'.bindings hc ch).trans (h.bindings hc ch)
  fault hc := (h'.fault hc).trans (h.fault hc)
  starvation hc := (h'.starvation hc).trans (h.starvation hc)
  nextSeq hc := (h'.nextSeq hc).trans (h.nextSeq hc)
  waiting hc hk := (h'.waiting hc hk).trans (h.waiting hc hk)
  judged hc hk := (h'.judged hc hk).trans (h.judged hc hk)
  producer hc hk := (h'.producer hc hk).trans (h.producer hc hk)
  lastReported hc := (h'.lastReported hc).trans (h.lastReported hc)
  pending hc n hn := h'.pending hc n (h.pending hc n hn)
  unseen hc n hn := h'.unseen hc n (h.unseen hc n hn)

/-- A record with the old one's definition leaves every circuit's definition as it was. -/
theorem definitions_update (f : Nat → Circuit) (k : Nat) {r : Circuit} (hp : (f k).sameParameters r)
    (he : r.entries = (f k).entries) (hch : r.channel = (f k).channel) (j : Nat) :
    (f j).sameParameters (Function.update f k r j) ∧ (Function.update f k r j).entries = (f j).entries
      ∧ (Function.update f k r j).channel = (f j).channel := by
  refine ⟨?_, update_field f k Circuit.entries he j, update_field f k Circuit.channel hch j⟩
  by_cases hj : j = k
  · subst hj
    simpa using hp
  · simpa [hj] using Circuit.sameParameters_refl (f j)

/-- A move leaves as it was all that its command is not named for. -/
theorem Move.kept (m : Move c e e') : Kept c e e' := by
  have same := Kept.refl c e
  cases m with
  | attend m =>
    exact { same with
      pending := fun _ n hn => by simp [hn]
      unseen := fun _ n hn => by simp [hn] }
  | attentionRead p h => exact { same with pending := fun hc => absurd h (not_exists.mpr hc) }
  | snapshotSeen u h => exact { same with unseen := fun hc => absurd h hc }
  | edit k r hr hp => exact { same with definitions := fun _ => definitions_update e.circuit k hp hr.2.1 hr.2.2.1 }
  | restate k st =>
    exact { same with
      definitions := fun _ => definitions_update e.circuit k ⟨rfl, rfl, rfl, rfl, rfl⟩ rfl rfl
      owners := fun _ i => by
        dsimp only [Essence.restate]
        split <;> rfl }
  | parameters k r hr h => exact { same with definitions := fun hc => absurd h hc }
  | retarget k new own h =>
    exact { same with definitions := fun hc => absurd h hc, owners := fun hc => absurd h hc }
  | bind k ch own h =>
    exact { same with definitions := fun hc => absurd h hc, bindings := fun hc => absurd h hc }
  | release k h =>
    exact { same with
      definitions := fun hc => absurd h hc, owners := fun hc => absurd h hc, bindings := fun hc => absurd h hc }
  | mode m h => exact { same with policy := fun hc => absurd h hc }
  | enables x h => exact { same with policy := fun hc => absurd h hc }
  | layout l p h => exact { same with layout := fun hc => absurd h hc, producer := fun hc => absurd h hc }
  | number n h => exact { same with number := fun hc => absurd h hc }
  | times settle verify steady silence h => exact { same with times := fun hc => absurd h hc }
  | fault f h => exact { same with fault := fun hc => absurd h hc }
  | starve n hn h => exact { same with starvation := fun hc => absurd h hc }
  | store r room h => exact { same with nextSeq := fun hc => absurd h hc, waiting := fun hc => absurd h hc }
  | classify j rest hw h =>
    exact { same with waiting := fun _ hc => absurd h hc, judged := fun hc => absurd h hc }
  | dismiss h => exact { same with judged := fun _ hc => absurd h hc }
  | produce h => exact { same with producer := fun _ hc => absurd h hc }
  | lastReported k h => exact { same with lastReported := fun hc => absurd h hc }
  | push a room => exact { same with }
  | take => exact { same with }
  | unlist l hl => exact { same with }
  | enlist k room fresh => exact { same with }

theorem Moves.kept {s t : State} (h : Moves c s t) : Kept c s.essence t.essence :=
  h.keeps (P := Kept c s.essence) (fun _ _ m he => he.trans m.kept) (Kept.refl c _)

/-- R168: at the end of an event the generation stays, or rises with a rewrite that has started. -/
theorem State.endEvent_generation (u : State) :
    u.endEvent.report.generation = u.report.generation
      ∨ (u.endEvent.report.generation = u.report.generation + 1 ∧ u.endEvent.report.wanted = false
        ∧ u.endEvent.report.summary.isWriting = true) := by
  cases h : u.summaryDue with
  | false => exact .inl (by rw [u.endEvent_idle h])
  | true =>
    rw [u.endEvent_due h]
    exact .inr ⟨rfl, rfl, rfl⟩

/-- Settles O59: each command is a chain of its moves, and a move leaves the rest as it was. -/
theorem onlyTheseCommandsChange : Obligations.OnlyTheseCommandsChange := by
  unfold Obligations.OnlyTheseCommandsChange
  intro c s t hreset hend hexec
  have hkept : Kept c s.essence { t.essence with generation := s.report.generation }
      ∧ (t.report.generation = s.report.generation
        ∨ (t.report.generation = s.report.generation + 1 ∧ t.report.wanted = false
          ∧ t.report.summary.isWriting = true)) := by
    rcases exec_runs s hreset hend hexec with ⟨_, rfl⟩ | ⟨u, hu, rfl⟩
    · exact ⟨Kept.refl c _, .inl rfl⟩
    · have hgen : u.report.generation = s.report.generation := hu.kept.generation
      refine ⟨?_, hgen ▸ u.endEvent_generation⟩
      have hitems : { u.endEvent.essence with generation := s.report.generation } = u.essence := by
        rw [← hgen, u.endEvent_frame]
        rfl
      rw [hitems]
      exact hu.kept
  obtain ⟨k, hgen⟩ := hkept
  obtain ⟨hreset', hstraps, hprescale⟩ := k.clock
  refine ⟨hreset', hstraps, hprescale, k.layout, k.policy, fun hc => ⟨k.number hc, k.times hc⟩, fun hl hd hf => ?_,
    k.fault, k.starvation, k.nextSeq, k.waiting, k.judged, k.producer, k.lastReported, hgen,
    fun hc x => k.pending hc x.bit, fun hc x => k.unseen hc x.bit⟩
  have hc : ¬ mayDefine c := fun h => h.elim hl fun h => h.elim hd hf
  refine ⟨fun j => ?_, k.owners hc, k.bindings hc⟩
  obtain ⟨⟨htag, hpers, htol, hfloor, hshift⟩, hentries, hchannel⟩ := k.definitions hc j
  exact ⟨htag, hpers, htol, hfloor, hshift, hentries, hchannel⟩

end Sys2Proof.Machine
end

section
/-! Settles O36: a SET_POLICY, and what is common to the directives that are executed. -/

namespace Sys2Proof.Machine

variable (s : State)

/-! ### The execution of a directive (R156, R157) -/

/-- R172: a field of a word by its place. -/
theorem bits_eq_extractLsb' (w : Word) (lo len : Nat) : bits w lo len = (w.extractLsb' lo len).toNat := by
  simp [bits, BitVec.extractLsb'_toNat, Nat.shiftRight_eq_div_pow]

/-- A block's step out of reset, and the end of its event. -/
theorem live_running (f : State → State) (h : s.inReset = false) : live f s = .next (f s).endEvent := by
  simp [live, h]

/-- R156: a directive in hand that no check refuses takes effect and is answered DONE. -/
theorem State.runDirective_done {k : DirectiveKind} {refusal : State → Option DirectiveAnswer}
    {effect : State → State} (h : s.inHand k) (hr : refusal s = none) :
    s.runDirective k refusal effect = (effect s).answerDirective ⟨.done, 0⟩ := by
  obtain ⟨-, hstep, hkind⟩ := h
  simp [State.runDirective, hstep, hkind, hr]

/-- R156, R168: the event of a directive in hand that no check refuses. -/
theorem exec_directive_done {c : Instr} {k : DirectiveKind} {refusal : State → Option DirectiveAnswer}
    {effect : State → State} (hexec : exec c s = live (fun s => s.runDirective k refusal effect) s)
    (h : s.inHand k) (hr : refusal s = none) :
    exec c s = .next ((effect s).answerDirective ⟨.done, 0⟩).endEvent := by
  rw [hexec, live_running s _ h.1, s.runDirective_done h hr]

/-- R157: an answer that is no refusal changes the Directive Unit and its request, and nothing else. -/
theorem State.answerDirective_plain (a : DirectiveAnswer) (h : a.outcome.isRefusal = false) :
    s.answerDirective a = { s with
      directive := { s.directive with step := .completing (s.directive.completionWords a) s.directive.chain.length }
      arbiter := { s.arbiter with directive := (s.answerDirective a).arbiter.directive } } := by
  conv_lhs => rw [State.answerDirective_frame, State.answerDirective_step]
  simp [h]

/-! ### SET_POLICY (R15, R162) -/

/-- R162: a SET_POLICY that no check refuses names a mode. -/
theorem State.policyRefusal_eq_none (h : s.policyRefusal = none) :
    modeOf (policyFields s.directive.chain).modeCode
      = some (if (policyFields s.directive.chain).modeCode = 1 then .watch else .guard) := by
  unfold State.policyRefusal at h
  split at h
  · cases h
  · rename_i hmode
    unfold modeOf at hmode ⊢
    split <;> simp_all

/-- R15: the mode taken, the flags rewritten by the fence rule, and all else but the summary mark as it was. -/
theorem State.setMode_spec (m : Mode) :
    s.setMode m = { s with
        store := { s.store with mode := m, entryMap := (s.setMode m).store.entryMap }
        report := { s.report with wanted := s.report.wanted || decide (m ≠ s.store.mode) } }
      ∧ (m = s.store.mode → (s.setMode m).store = s.store)
      ∧ (m ≠ s.store.mode → ∀ i, (s.setMode m).mapEntry i =
          { owner := (s.mapEntry i).owner
            fenced := (s.mapEntry i).owner.elim false fun c => fences m (s.circuit c).state }) := by
  by_cases hm : s.store.mode = m
  · subst hm
    rw [State.setMode_same s _ rfl]
    simp
  · obtain ⟨map, hs, hmap⟩ := State.setMode_change s m hm
    have hne : m ≠ s.store.mode := fun h => hm h.symm
    refine ⟨?_, fun h => absurd h hne, fun _ i => ?_⟩
    · rw [hs]
      simp [hne]
    · rw [hs]
      refine (hmap i).trans ?_
      split
      · rfl
      · rename_i hi
        have hnone : s.mapEntry i = {} := Table.get_unlisted ({} : MapEntry) hi
        simp [hnone]

/-- R13: the fence rule, state by state. -/
theorem fences_eq (m : Mode) (st : CircuitState) :
    fences m st = (decide (st ∈ [.pending, .confirmed, .degraded, .broken, .silent, .restoring])
      || (decide (m = .guard) && decide (st ∈ [.loading, .settled, .drifted, .faulted]))) := by
  cases m <;> cases st <;> decide

/-- Settles O36: the mode code names the mode, and the change of mode rewrites the flags. -/
theorem policyTaken : Obligations.PolicyTaken := by
  unfold Obligations.PolicyTaken
  intro s hand hrefusal
  dsimp only
  have hcode : (policyFields s.directive.chain).modeCode
      = ((chainWord s.directive.chain 0 1).extractLsb' 0 8).toNat := bits_eq_extractLsb' _ 0 8
  have hmode := s.policyRefusal_eq_none hrefusal
  rw [hcode] at hmode
  generalize (if ((chainWord s.directive.chain 0 1).extractLsb' 0 8).toNat = 1 then Mode.watch else .guard) = m
    at hmode ⊢
  have haccept : s.acceptPolicy = { s.setMode m with report := { (s.setMode m).report with
      enables := (chainWord s.directive.chain 0 1).extractLsb' 16 9 } } := by
    simp only [State.acceptPolicy, hcode, hmode, Option.getD_some]
    rfl
  obtain ⟨hframe, hsame, hother⟩ := s.setMode_spec m
  refine ⟨_, exec_directive_done s rfl hand hrefusal, ?_⟩
  rw [State.answerDirective_plain _ _ rfl, haccept]
  refine ⟨?_, hsame, fun hne i => ?_, ?_⟩
  · dsimp only
    rw [hframe]
  · have hentry := hother hne i
    simp only [fences_eq] at hentry
    exact hentry
  · rw [hframe]
    exact ⟨rfl, rfl, rfl, rfl, rfl, rfl⟩

end Sys2Proof.Machine
end

section
/-! Settles O39: a DROP. -/

namespace Sys2Proof.Machine

variable (s : State)

/-- R172: the circuit number of a DROP or RESTORE by its bits. -/
theorem circuitField_eq (chain : List (List Word)) :
    circuitField chain = ((chainWord chain 0 1).extractLsb' 0 16).toNat := bits_eq_extractLsb' _ 0 16

theorem filter_bne (l : List Nat) (c : Nat) : l.filter (· != c) = l.filter fun k => decide (k ≠ c) :=
  List.filter_congr fun k _ => Bool.eq_iff_iff.mpr (by simp)

/-- R24, R25: the answer of a DROP's checks, case by case. -/
theorem State.dropRefusal_cases {c : Nat} (hc : circuitField s.directive.chain = c) :
    (512 ≤ c → s.dropRefusal = some ⟨.refusedRange, 0⟩)
      ∧ (c < 512 →
        (s.window.state = .quiet → (s.circuit c).state ∈ [.empty, .settled, .drifted, .faulted] → s.dropRefusal = none)
        ∧ (s.window.state = .quiet → (s.circuit c).state ∈ [.loading, .restoring] →
          s.dropRefusal = some ⟨.refusedState, 0⟩)
        ∧ (s.window.state = .opened →
          s.dropRefusal = if (s.circuit c).state = .held then none else some ⟨.refusedState, 0⟩)
        ∧ (s.window.state ≠ .quiet → s.window.state ≠ .opened → s.dropRefusal = some ⟨.refusedState, 512⟩)) := by
  subst hc
  unfold State.dropRefusal
  dsimp only
  refine ⟨fun h => if_pos h, fun h => ?_⟩
  rw [if_neg (show ¬ Config.circuits ≤ circuitField s.directive.chain from Nat.not_le.mpr h)]
  refine ⟨fun hq hst => ?_, fun hq hst => ?_, fun ho => ?_, fun hq ho => ?_⟩
  · rw [hq]
    dsimp only
    split <;> simp_all
  · rw [hq]
    dsimp only
    split <;> simp_all
  · rw [ho]
  · cases h : s.window.state <;> simp_all [refusedWindow]

/-- Settles O39: a DROP releases its circuit, and a release is as `release_circuit` and its fellows say. -/
theorem dropReleases : Obligations.DropReleases := by
  unfold Obligations.DropReleases
  refine ⟨fun s hand hrefusal => ?_, fun s _ => ?_⟩
  · rw [← circuitField_eq]
    generalize hc : circuitField s.directive.chain = c
    have haccept : s.acceptDrop = if (s.circuit c).state = .empty then s else s.release c := by
      rw [← hc]
      rfl
    refine ⟨_, exec_directive_done s rfl hand hrefusal, ?_⟩
    rw [State.answerDirective_plain _ _ rfl, haccept]
    by_cases hempty : (s.circuit c).state = .empty
    · rw [if_pos hempty]
      exact ⟨fun _ _ => rfl, fun _ => ⟨rfl, rfl, rfl, rfl, rfl⟩, fun h => absurd hempty h, rfl, rfl, rfl⟩
    · rw [if_neg hempty]
      have hcircuit := s.release_circuit c
      have hmap := s.release_mapEntry c
      have hbound := s.release_boundTo c
      have hevidence := s.release_evidenceOf c
      have hmember := s.release_member c
      have howes := s.release_owes c hempty
      have hframe := s.release_frame c
      generalize s.release c = u at hcircuit hmap hbound hevidence hmember howes hframe ⊢
      refine ⟨fun j hj => (hcircuit j).trans (if_neg hj), fun h => absurd h hempty,
        fun _ => ⟨(hcircuit c).trans (if_pos rfl), hmap, hbound, hevidence, ?_, hmember, howes⟩, ?_, ?_, ?_⟩
      all_goals
        dsimp only
        rw [hframe]
      rw [filter_bne]
  · rw [← circuitField_eq]
    obtain ⟨hrange, hstates⟩ := s.dropRefusal_cases rfl
    refine ⟨hrange, fun h => ?_⟩
    obtain ⟨htaken, hbusy, hopened, hlate⟩ := hstates h
    exact ⟨fun hq hst => htaken hq (by simpa using hst), fun hq hst => hbusy hq (by simpa using hst), hopened, hlate⟩

end Sys2Proof.Machine
end

section
/-! The fields of a LOAD by their bits (R172), and the answers of its checks (R18, R19). -/

namespace Sys2Proof.Machine

/-! ### Fields by bits (R34, R172) -/

theorem laneOf_lt (bord : Bool) (j : Nat) (h : j < 4) : laneOf bord j < 4 := by
  unfold laneOf
  split <;> omega

/-- R34: the octets of a tag after a write of all four lanes to one of its words. -/
theorem assembleTag_all (bord : Bool) (w : Nat) (data : Word) (old : Tag) (k : Fin 12) :
    (assembleTag bord w data 0xF old)[k]
      = if k.val / 4 = w then data.extractLsb' (8 * laneOf bord (k.val % 4)) 8 else old[k] := by
  have hlane : (15#4).getLsbD (laneOf bord (k.val % 4)) = true := by
    have hlt := laneOf_lt bord (k.val % 4) (by omega)
    generalize laneOf bord (k.val % 4) = l at hlt
    interval_cases l <;> rfl
  simp [assembleTag, hlane, laneOctet]

/-- R3, R172: octet `k` of a tag stands in word `k / 4` of the three. -/
theorem tagOfWords_octet (bord : Bool) (w : Nat → Word) (k : Fin 12) :
    (tagOfWords bord (w 2) (w 3) (w 4))[k]
      = (w (2 + k.val / 4)).extractLsb' (8 * laneOf bord (k.val % 4)) 8 := by
  have hk : k.val / 4 < 3 := by omega
  simp only [tagOfWords, assembleTag_all]
  generalize k.val / 4 = n at hk
  interval_cases n <;> rfl

/-- R172: the six entry positions of a LOAD, two to a word. -/
theorem loadEntries_eq (w7 : Word) (w : Nat → Word) :
    halves w7 ++ halves (w 1) ++ halves (w 2) = (List.range 6).map fun p =>
      ((if p < 2 then w7 else w (p / 2)).extractLsb' (16 * (p % 2)) 16).toNat := by
  simp [List.range_succ, halves, bits_eq_extractLsb']

/-- R172: the fields of a LOAD stand at their bits. -/
theorem State.loadPlaced_all (s : State) : s.loadPlaced := by
  refine ⟨bits_eq_extractLsb' _ 0 16, bits_eq_extractLsb' _ 16 16, fun k => ?_, bits_eq_extractLsb' _ 0 8,
    bits_eq_extractLsb' _ 8 8, bits_eq_extractLsb' _ 16 16, ?_, bits_eq_extractLsb' _ 16 8, fun hcount => ?_⟩
  · exact tagOfWords_octet s.straps.bord (chainWord s.directive.chain 0) k
  · show signed16 (bits (chainWord s.directive.chain 0 6) 0 16) = _
    rw [bits_eq_extractLsb', signed16, BitVec.ofNat_toNat, BitVec.setWidth_eq]
  · have hentries : s.loadInHand.entries
        = (halves (chainWord s.directive.chain 0 7) ++ halves (chainWord s.directive.chain 1 1)
          ++ halves (chainWord s.directive.chain 1 2)).take s.loadInHand.entryCount := rfl
    rw [hentries, loadEntries_eq, ← List.map_take, List.take_range, Nat.min_eq_left hcount]

/-! ### The checks (R18, R19) -/

/-- R18 check 3: entry `p` of a list is out of range, or listed before. -/
def badEntry (n : Nat) (seen l : List Nat) (p : Nat) : Prop := n ≤ l.getD p 0 ∨ l.getD p 0 ∈ seen ++ l.take p

theorem badEntry_succ (n i : Nat) (seen rest : List Nat) (p : Nat) :
    badEntry n seen (i :: rest) (p + 1) ↔ badEntry n (seen ++ [i]) rest p := by
  simp [badEntry]

theorem badEntry_zero (n i : Nat) (seen rest : List Nat) :
    badEntry n seen (i :: rest) 0 ↔ n ≤ i ∨ seen.contains i = true := by
  simp [badEntry]

/-- R18: with no bad entry the check passes. -/
theorem entryFailure_none (n : Nat) (seen l : List Nat) (h : ∀ p, p < l.length → ¬ badEntry n seen l p) :
    entryFailure n seen l = none := by
  induction l generalizing seen with
  | nil => rfl
  | cons i rest ih =>
    have h0 := (not_congr (badEntry_zero n i seen rest)).mp (h 0 (by simp))
    rw [entryFailure, if_neg h0]
    exact ih _ fun p hp => (not_congr (badEntry_succ n i seen rest p)).mp (h (p + 1) (by simpa using hp))

/-- R18: the check answers the position of the first bad entry. -/
theorem entryFailure_first (n : Nat) (seen l : List Nat) (p : Nat) (hp : p < l.length) (hbad : badEntry n seen l p)
    (hfirst : ∀ q, q < p → ¬ badEntry n seen l q) : entryFailure n seen l = some (seen.length + p + 1) := by
  induction l generalizing seen p with
  | nil => simp at hp
  | cons i rest ih =>
    cases p with
    | zero => rw [entryFailure, if_pos ((badEntry_zero n i seen rest).mp hbad), Nat.add_zero]
    | succ p =>
      have h0 := (not_congr (badEntry_zero n i seen rest)).mp (hfirst 0 (by omega))
      rw [entryFailure, if_neg h0, ih (seen ++ [i]) p (by simpa using hp) ((badEntry_succ n i seen rest p).mp hbad)
        fun q hq => (not_congr (badEntry_succ n i seen rest q)).mp (hfirst (q + 1) (by omega))]
      simp only [List.length_append, List.length_singleton, Option.some.injEq]
      omega

/-- R19: the first entry that another circuit owns gives the conflict. -/
theorem State.loadConflict_entry (s : State) (f : LoadFields) (p c : Nat) (hp : p < f.entries.length)
    (howner : (s.mapEntry (f.entries.getD p 0)).owner = some c) (hc : c ≠ f.circuit)
    (hfirst : ∀ q, q < p → (s.mapEntry (f.entries.getD q 0)).owner = none
      ∨ (s.mapEntry (f.entries.getD q 0)).owner = some f.circuit) : s.loadConflict f = some c := by
  have hfind : f.entries.findSome? (fun i => (s.mapEntry i).owner.filter (· != f.circuit)) = some c := by
    refine List.findSome?_eq_some_iff.mpr
      ⟨f.entries.take p, f.entries[p], f.entries.drop (p + 1), by simp, ?_, fun i hi => ?_⟩
    · have hget : f.entries.getD p 0 = f.entries[p] := by simp [hp]
      rw [← hget, howner]
      simp [Option.filter, hc]
    · obtain ⟨q, hq, rfl⟩ := List.getElem_of_mem hi
      have hqp : q < p := by
        simp only [List.length_take] at hq
        omega
      rw [filter_ne_eq_none]
      have hget : f.entries.getD q 0 = (f.entries.take p)[q] := by
        rw [List.getElem_take, List.getD_eq_getElem _ _ (by omega)]
      rw [← hget]
      exact hfirst q hqp
  unfold State.loadConflict
  dsimp only
  rw [hfind]

/-- R19: with free entries, a channel bound to another circuit gives the conflict. -/
theorem State.loadConflict_channel (s : State) (f : LoadFields) (c : Nat)
    (hentries : ∀ i ∈ f.entries, (s.mapEntry i).owner = none ∨ (s.mapEntry i).owner = some f.circuit)
    (hbound : s.boundTo f.channel = some c) (hc : c ≠ f.circuit) : s.loadConflict f = some c := by
  have hfind : f.entries.findSome? (fun i => (s.mapEntry i).owner.filter (· != f.circuit)) = none := by
    simpa only [List.findSome?_eq_none_iff, filter_ne_eq_none] using hentries
  unfold State.loadConflict
  dsimp only
  rw [hfind, hbound]
  simp [Option.filter, hc]

/-- R18, R19: the range check decides before the others. -/
theorem State.loadRefusal_range (s : State) (d : Nat) (h : loadRange s.layout s.loadInHand = some d) :
    s.loadRefusal = some ⟨.refusedRange, d⟩ := by
  unfold State.loadRefusal
  simp only [h]

/-- R19: in range, the state check decides before the conflicts. -/
theorem State.loadRefusal_state (s : State) (d : Nat) (hrange : loadRange s.layout s.loadInHand = none)
    (h : loadState s.window.state (s.circuit s.loadInHand.circuit).state = some d) :
    s.loadRefusal = some ⟨.refusedState, d⟩ := by
  unfold State.loadRefusal
  simp only [hrange, h]

/-- R19: in range and taken in this state, a conflict decides. -/
theorem State.loadRefusal_conflict (s : State) (hrange : loadRange s.layout s.loadInHand = none)
    (h : loadState s.window.state (s.circuit s.loadInHand.circuit).state = none) :
    s.loadRefusal = (s.loadConflict s.loadInHand).map fun c => ⟨.conflict, c⟩ := by
  unfold State.loadRefusal
  simp only [hrange, h]

/-- R19: the states in which a LOAD is taken in QUIET and in OPEN. -/
def loadTaken (w : WindowState) (st : CircuitState) : Prop :=
  (w = .quiet ∧ (st = .empty ∨ st = .settled ∨ st = .drifted ∨ st = .faulted))
    ∨ (w = .opened ∧ (st = .empty ∨ st = .held))

theorem loadState_eq_none {w : WindowState} {st : CircuitState} : loadState w st = none ↔ loadTaken w st := by
  cases w <;> cases st <;> simp [loadState, loadTaken]

theorem loadState_circuit {w : WindowState} {st : CircuitState} (hw : w = .quiet ∨ w = .opened)
    (h : ¬ loadTaken w st) : loadState w st = some 0 := by
  rcases hw with rfl | rfl <;> cases st <;> simp_all [loadState, loadTaken]

theorem loadState_window {w : WindowState} (st : CircuitState) (hq : w ≠ .quiet) (ho : w ≠ .opened) :
    loadState w st = some 512 := by
  cases w <;> simp_all [loadState]

/-- R18: a circuit number or an entry count out of range is the first failure. -/
theorem loadRange_unnamed (l : Layout) (f : LoadFields)
    (h : ¬ (f.circuit < 512 ∧ 1 ≤ f.entryCount ∧ f.entryCount ≤ 6)) : loadRange (some l) f = some 0 := by
  unfold loadRange Config.circuits
  split
  · rfl
  split
  · rfl
  · omega

/-- R18: with the circuit and the count in range the entries and then the channel decide. -/
theorem loadRange_named (l : Layout) (f : LoadFields) (h : f.circuit < 512 ∧ 1 ≤ f.entryCount ∧ f.entryCount ≤ 6) :
    loadRange (some l) f = (entryFailure l.connCount [] f.entries).or
      (if l.channelCount ≤ f.channel then some 0 else none) := by
  unfold loadRange Config.circuits
  rw [if_neg (by omega), if_neg (by omega)]
  simp only [Option.elim_some]
  cases entryFailure l.connCount [] f.entries <;> rfl

end Sys2Proof.Machine
end

section
/-! A circuit redefined by a LOAD (R20, R22, R23), and a job that comes to its access (R119, R120). -/

namespace Sys2Proof.Machine

variable (s : State)

/-! ### Binding (R11, R80) -/

/-- R11: a channel bound to a circuit names it, the one it leaves names none, and the rest stay; also where the circuit
has the channel already. -/
theorem State.bind_boundTo_of_agree (c ch k : Nat) (h : (s.circuit c).channel = some ch → s.boundTo ch = some c) :
    (s.bind c ch).boundTo k =
      if k = ch then some c else if (s.circuit c).channel = some k then none else s.boundTo k := by
  by_cases hch : (s.circuit c).channel = some ch
  · have hs : s.bind c ch = s := if_pos hch
    rw [hs, hch]
    by_cases hk : k = ch
    · subst hk
      simpa using h hch
    · simp [hk, Ne.symm hk]
  · exact s.bind_boundTo c ch k hch

/-- R11: a circuit that has the channel already binds nothing. -/
theorem State.bind_same (c ch : Nat) (h : (s.circuit c).channel = some ch) : s.bind c ch = s := if_pos h

/-- R80: out of VERIFYING an evidence reset leaves the reset value. -/
theorem State.resetEvidence_evidenceOf (ch k : Nat) (hw : s.window.state ≠ .verifying) :
    (s.resetEvidence ch).evidenceOf k = if k = ch then {} else s.evidenceOf k := by
  simp [State.resetEvidence, State.resetSilence, hw]

/-- R11, R79, R80: out of VERIFYING a channel newly bound has its evidence reset, and the one the circuit leaves keeps
its evidence with the silence timer stopped. -/
theorem State.bind_evidenceOf (c ch k : Nat) (h : (s.circuit c).channel ≠ some ch)
    (hw : s.window.state ≠ .verifying) :
    (s.bind c ch).evidenceOf k =
      if k = ch then {}
      else if (s.circuit c).channel = some k then { s.evidenceOf k with silence := .stopped }
      else s.evidenceOf k := by
  unfold State.bind
  simp only [if_neg h]
  cases hch : (s.circuit c).channel with
  | none =>
    rw [State.resetEvidence_evidenceOf]
    · simp [State.forSome]
    · exact hw
  | some o =>
    rw [State.resetEvidence_evidenceOf]
    · by_cases hk : k = ch
      · simp [hk]
      · by_cases ho : o = k
        · subst ho
          simp only [hk, if_false, if_true]
          exact (State.setSilence_evidenceOf _ o .stopped o).trans (if_pos rfl)
        · simp only [hk, ho, if_false, Option.some.injEq]
          exact (State.setSilence_evidenceOf _ o .stopped k).trans (if_neg (Ne.symm ho))
    · exact hw

/-! ### A redefinition -/

/-- R20, R22: circuit `f.circuit` takes the parameters, the entries and the channel of a LOAD, and then `g`. -/
def State.redefined (f : LoadFields) (g : Circuit → Circuit) : State :=
  (((s.mapCircuit f.circuit fun r => r.takeParameters f).retarget f.circuit f.entries).bind f.circuit
    f.channel).mapCircuit f.circuit g

/-- The record that a LOAD gives a circuit. -/
def Circuit.defineBy (r : Circuit) (f : LoadFields) : Circuit :=
  { r.takeParameters f with entries := f.entries, channel := some f.channel }

variable (f : LoadFields) (g : Circuit → Circuit)

/-- A redefinition changes the circuit, its entries, the channels and their evidence, and nothing else. -/
theorem State.redefined_frame :
    s.redefined f g = { s with
      store := { s.store with
        circuits := (s.redefined f g).store.circuits, entryMap := (s.redefined f g).store.entryMap
        channelMap := (s.redefined f g).store.channelMap }
      trace := { s.trace with evidence := (s.redefined f g).trace.evidence } } := by
  unfold State.redefined
  rw [State.bind_frame, State.retarget_frame]
  rfl

theorem State.redefined_circuit (k : Nat) :
    (s.redefined f g).circuit k
      = if k = f.circuit then g ((s.circuit f.circuit).defineBy f) else s.circuit k := by
  by_cases hk : k = f.circuit
  · subst hk
    simp [State.redefined, Circuit.defineBy]
  · simp [State.redefined, hk]

theorem State.redefined_mapEntry (i : Nat) :
    (s.redefined f g).mapEntry i =
      if i ∈ f.entries ∧ i ∉ (s.circuit f.circuit).entries then
        { owner := some f.circuit, fenced := s.fenceRule (some f.circuit) }
      else if i ∈ (s.circuit f.circuit).entries ∧ i ∉ f.entries then {} else s.mapEntry i := by
  have hentries : ((s.mapCircuit f.circuit fun r => r.takeParameters f).circuit f.circuit).entries
      = (s.circuit f.circuit).entries := by simp [Circuit.takeParameters]
  have hrule : (s.mapCircuit f.circuit fun r => r.takeParameters f).fenceRule (some f.circuit)
      = s.fenceRule (some f.circuit) := by
    simp [State.fenceRule, Circuit.takeParameters, State.mapCircuit]
  unfold State.redefined
  rw [State.mapCircuit, State.putCircuit_mapEntry, State.bind_mapEntry, State.retarget_mapEntry, hentries, hrule]
  rfl

theorem State.redefined_boundTo (ch : Nat)
    (h : (s.circuit f.circuit).channel = some f.channel → s.boundTo f.channel = some f.circuit) :
    (s.redefined f g).boundTo ch =
      if ch = f.channel then some f.circuit
      else if (s.circuit f.circuit).channel = some ch then none else s.boundTo ch := by
  have hchannel : (((s.mapCircuit f.circuit fun r => r.takeParameters f).retarget f.circuit f.entries).circuit
      f.circuit).channel = (s.circuit f.circuit).channel := by simp [Circuit.takeParameters]
  unfold State.redefined
  rw [State.mapCircuit, State.putCircuit_boundTo, State.bind_boundTo_of_agree, hchannel, State.retarget_boundTo]
  · rfl
  · rw [hchannel, State.retarget_boundTo]
    exact h

theorem State.redefined_evidenceOf_new (ch : Nat) (h : (s.circuit f.circuit).channel ≠ some f.channel)
    (hw : s.window.state ≠ .verifying) :
    (s.redefined f g).evidenceOf ch =
      if ch = f.channel then {}
      else if (s.circuit f.circuit).channel = some ch then { s.evidenceOf ch with silence := .stopped }
      else s.evidenceOf ch := by
  have hchannel : (((s.mapCircuit f.circuit fun r => r.takeParameters f).retarget f.circuit f.entries).circuit
      f.circuit).channel = (s.circuit f.circuit).channel := by simp [Circuit.takeParameters]
  have hwindow : ((s.mapCircuit f.circuit fun r => r.takeParameters f).retarget f.circuit f.entries).window
      = s.window := by
    rw [State.retarget_frame]
    rfl
  have hevidence : ((s.mapCircuit f.circuit fun r => r.takeParameters f).retarget f.circuit f.entries).evidenceOf ch
      = s.evidenceOf ch := by
    rw [State.retarget_frame]
    rfl
  unfold State.redefined
  rw [State.mapCircuit_evidenceOf, State.bind_evidenceOf, hchannel, hevidence]
  · rwa [hchannel]
  · rwa [hwindow]

theorem State.redefined_trace_same (h : (s.circuit f.circuit).channel = some f.channel) :
    (s.redefined f g).trace = s.trace := by
  have hchannel : (((s.mapCircuit f.circuit fun r => r.takeParameters f).retarget f.circuit f.entries).circuit
      f.circuit).channel = some f.channel := by simpa [Circuit.takeParameters] using h
  unfold State.redefined
  rw [State.bind_same _ _ _ hchannel, State.retarget_frame]
  rfl

/-! ### A job comes to its access (R119, R120) -/

/-- R120: the posted-write buffer holds a write to this address. -/
theorem State.bufferHolds_eq (addr : Nat) :
    s.bufferHolds addr = s.pass.buffer.any fun b => decide (b.addr = addr) := by
  unfold State.bufferHolds
  congr 1

/-- R40: no access of the Sweep Engine is requesting or in progress. -/
theorem State.sweepOutstanding_eq_false (ha : s.arbiter.sweep = none)
    (hp : ∀ g, s.arbiter.port = some g → g.who ≠ .sweep) : s.sweepOutstanding = false := by
  unfold State.sweepOutstanding
  cases hport : s.arbiter.port with
  | none => simp [ha]
  | some g => simpa [ha] using hp g hport

/-- R120: with no access of the engine outstanding an access that is ready is requested, or held while the posted-write
buffer holds a write to that word. -/
theorem State.requestOrHold_ready (addr : Nat) (data : Option Word) (ho : s.sweepOutstanding = false) :
    s.requestOrHold addr data = { s with
      sweep := { s.sweep with held := if s.bufferHolds addr then some (addr, data) else none }
      arbiter := { s.arbiter with
        sweep := if s.bufferHolds addr then none else some { addr, write := data.map (·, 0xF) } } } := by
  have hidle : s.arbiter.sweep = none := by
    unfold State.sweepOutstanding at ho
    cases ha : s.arbiter.sweep with
    | none => rfl
    | some r => simp [ha] at ho
  cases hb : s.bufferHolds addr with
  | true =>
    rw [s.requestOrHold_held _ _ (.inl hb)]
    simp [← hidle]
  | false =>
    rw [s.requestOrHold_clear _ _ hb ho]
    rfl

/-- R119, R120: with no access of the engine outstanding a job taken up requests or holds its access. -/
theorem State.runJob_ready (j : Job) (addr : Nat) (data : Option Word)
    (h : State.sweepAccess { s with sweep := { s.sweep with job := j } } = some (addr, data))
    (ho : s.sweepOutstanding = false) :
    s.runJob j = { s with
      sweep := { s.sweep with job := j, held := if s.bufferHolds addr then some (addr, data) else none }
      arbiter := { s.arbiter with
        sweep := if s.bufferHolds addr then none else some { addr, write := data.map (·, 0xF) } } } :=
  (State.requestSweep_ready _ addr data h).trans (State.requestOrHold_ready _ addr data ho)

/-- R119: a capture that waits with no job running starts. -/
theorem State.startNextJob_capture (c : Nat) (hj : s.sweep.job = .none) (hc : s.sweep.captureRequest = some c) :
    s.startNextJob = State.runJob { s with sweep := { s.sweep with captureRequest := none } } (.capture c 1) := by
  simp [State.startNextJob, hj, hc]

/-- R119: while a job runs no other starts. -/
theorem State.startNextJob_busy (hj : s.sweep.job ≠ .none) : s.startNextJob = s := by
  simp [State.startNextJob, hj]

end Sys2Proof.Machine
end

section
/-! Settles O37: a LOAD in QUIET. -/

namespace Sys2Proof.Machine

variable (s : State) (f : LoadFields)

/-- R20: what a LOAD in QUIET clears of a circuit's record. -/
def Circuit.forgetCapture (r : Circuit) : Circuit :=
  { r with baseline := none, cause := none, sweepResult := none, restoreOutcome := none, suspect := false }

/-- R20: a LOAD in QUIET up to the request of the capture: the circuit off the restore list, redefined and LOADING. -/
def State.loadedInQuiet : State :=
  ((s.unlistRestore f.circuit).redefined f Circuit.forgetCapture).setCircuitState f.circuit .loading

theorem State.loadInQuiet_eq :
    s.loadInQuiet f = State.startNextJob { s.loadedInQuiet f with
      sweep := { (s.loadedInQuiet f).sweep with captureRequest := some f.circuit } } := by
  have hforget : Circuit.forgetCapture = fun r : Circuit =>
    { r with baseline := none, cause := none, sweepResult := none, restoreOutcome := none, suspect := false } := rfl
  unfold State.loadInQuiet State.loadedInQuiet State.redefined
  rw [hforget]

theorem State.loadedInQuiet_frame :
    s.loadedInQuiet f = { s with
      store := { (s.loadedInQuiet f).store with mode := s.store.mode }
      trace := { s.trace with evidence := (s.loadedInQuiet f).trace.evidence }
      sweep := { s.sweep with restoreList := s.sweep.restoreList.filter (· != f.circuit) }
      report := (s.loadedInQuiet f).report } := by
  unfold State.loadedInQuiet
  obtain ⟨m, ct, owed, wanted, b, hs⟩ := State.setCircuitState_frame
    ((s.unlistRestore f.circuit).redefined f Circuit.forgetCapture) f.circuit .loading
  rw [hs, State.redefined_frame, State.unlistRestore_frame]

theorem State.loadedInQuiet_circuit (k : Nat) :
    (s.loadedInQuiet f).circuit k = if k = f.circuit then
        { ((s.circuit f.circuit).defineBy f).forgetCapture with state := .loading }
      else s.circuit k := by
  unfold State.loadedInQuiet
  rw [State.setCircuitState_circuit, State.redefined_circuit, State.redefined_circuit, if_pos rfl,
    State.unlistRestore_circuit, State.unlistRestore_circuit]
  split <;> rfl

/-- R13: the fence rule for a circuit's entries goes by the state in its record. -/
theorem State.putCircuit_fenceRule_self (c : Nat) (r : Circuit) :
    (s.putCircuit c r).fenceRule (some c) = fences s.store.mode r.state := by
  have hr : (s.putCircuit c r).circuit c = r := by simp
  show fences s.store.mode ((s.putCircuit c r).circuit c).state = _
  rw [hr]

theorem State.redefined_unlisted_mapEntry (g : Circuit → Circuit) (i : Nat) :
    ((s.unlistRestore f.circuit).redefined f g).mapEntry i = (s.redefined f g).mapEntry i := by
  rw [State.redefined_mapEntry, State.redefined_mapEntry, State.unlistRestore_circuit, State.unlistRestore_mapEntry,
    State.unlistRestore_frame]
  rfl

/-- R20, R13: the entries of a LOADING circuit are fenced exactly in GUARD; those it no longer lists are free. -/
theorem State.loadedInQuiet_mapEntry (hagree : s.entriesAgree) (hstate : (s.circuit f.circuit).state ≠ .loading)
    (i : Nat) :
    (s.loadedInQuiet f).mapEntry i =
      if i ∈ f.entries then { owner := some f.circuit, fenced := decide (s.store.mode = .guard) }
      else if i ∈ (s.circuit f.circuit).entries then {} else s.mapEntry i := by
  have hcircuit : ((s.unlistRestore f.circuit).redefined f Circuit.forgetCapture).circuit f.circuit
      = ((s.circuit f.circuit).defineBy f).forgetCapture := by
    rw [State.redefined_circuit, if_pos rfl, State.unlistRestore_circuit]
  have hmode : ((s.unlistRestore f.circuit).redefined f Circuit.forgetCapture).store.mode = s.store.mode := by
    rw [State.redefined_frame, State.unlistRestore_frame]
  have hnew : (((s.circuit f.circuit).defineBy f).forgetCapture).state ≠ .loading ∧
      ((((s.circuit f.circuit).defineBy f).forgetCapture).entries = f.entries) := ⟨hstate, rfl⟩
  unfold State.loadedInQuiet
  rw [State.setCircuitState_mapEntry, hcircuit, hnew.2, State.redefined_unlisted_mapEntry, State.redefined_mapEntry]
  by_cases hi : i ∈ f.entries
  · have howner : (if i ∈ f.entries ∧ i ∉ (s.circuit f.circuit).entries then
          ({ owner := some f.circuit, fenced := s.fenceRule (some f.circuit) } : MapEntry)
        else if i ∈ (s.circuit f.circuit).entries ∧ i ∉ f.entries then {} else s.mapEntry i).owner
          = some f.circuit := by
      by_cases hold : i ∈ (s.circuit f.circuit).entries
      · simpa [hi, hold] using (hagree i f.circuit).mpr hold
      · simp [hi, hold]
    generalize (if i ∈ f.entries ∧ i ∉ (s.circuit f.circuit).entries then
          ({ owner := some f.circuit, fenced := s.fenceRule (some f.circuit) } : MapEntry)
        else if i ∈ (s.circuit f.circuit).entries ∧ i ∉ f.entries then {} else s.mapEntry i) = e at howner ⊢
    obtain ⟨owner, fenced⟩ := e
    dsimp only at howner
    subst howner
    rw [if_pos ⟨hnew.1, hi⟩, if_pos hi]
    dsimp only
    rw [State.putCircuit_fenceRule_self, hmode]
    cases s.store.mode <;> rfl
  · rw [if_neg (fun h => hi h.2), if_neg (fun h => hi h.1), if_neg hi]
    simp [hi]

theorem State.loadedInQuiet_boundTo (hagree : s.channelsAgree) (ch : Nat) :
    (s.loadedInQuiet f).boundTo ch =
      if ch = f.channel then some f.circuit else if s.boundTo ch = some f.circuit then none else s.boundTo ch := by
  unfold State.loadedInQuiet
  rw [State.setCircuitState_boundTo, State.redefined_boundTo, State.unlistRestore_circuit, State.unlistRestore_boundTo]
  · simp only [hagree ch f.circuit]
  · rw [State.unlistRestore_circuit, State.unlistRestore_boundTo]
    exact (hagree _ _).mpr

theorem State.loadedInQuiet_evidenceOf (hw : s.window.state = .quiet) :
    (s.loadedInQuiet f).evidenceOf f.channel =
      if (s.circuit f.circuit).channel = some f.channel then s.evidenceOf f.channel else {} := by
  have hbase : (s.unlistRestore f.circuit).window = s.window ∧ (s.unlistRestore f.circuit).trace = s.trace := by
    rw [State.unlistRestore_frame]
    exact ⟨rfl, rfl⟩
  unfold State.loadedInQuiet
  rw [State.setCircuitState_evidenceOf]
  split
  · rename_i h
    rw [State.evidenceOf, State.redefined_trace_same, hbase.2]
    · rfl
    · rwa [State.unlistRestore_circuit]
  · rename_i h
    rw [State.redefined_evidenceOf_new, if_pos rfl]
    · rwa [State.unlistRestore_circuit]
    · rw [hbase.1, hw]
      decide

/-- R16: a LOAD in QUIET makes the CIRCUIT report owed. -/
theorem State.loadedInQuiet_owes (hstate : (s.circuit f.circuit).state ≠ .loading) :
    Table.get false (s.loadedInQuiet f).report.owed f.circuit = true := by
  unfold State.loadedInQuiet
  refine State.setCircuitState_owes _ _ _ ?_
  rw [State.redefined_circuit, if_pos rfl, State.unlistRestore_circuit]
  exact hstate

/-- R119: a waiting capture changes the Sweep Engine and its request, and nothing else. -/
theorem State.startNextJob_capture_frame (c : Nat) (hc : s.sweep.captureRequest = some c) :
    s.startNextJob = { s with
      sweep := { s.sweep with
        job := s.startNextJob.sweep.job, held := s.startNextJob.sweep.held
        captureRequest := s.startNextJob.sweep.captureRequest }
      arbiter := { s.arbiter with sweep := s.startNextJob.arbiter.sweep } } := by
  by_cases hj : s.sweep.job = .none
  · rw [s.startNextJob_capture c hj hc, State.runJob_frame]
  · rw [s.startNextJob_busy hj]

/-- R20, R119: the request of the capture changes the Sweep Engine and its access only. -/
theorem State.loadInQuiet_frame :
    s.loadInQuiet f = { s.loadedInQuiet f with
      sweep := { (s.loadedInQuiet f).sweep with
        job := (s.loadInQuiet f).sweep.job, held := (s.loadInQuiet f).sweep.held
        captureRequest := (s.loadInQuiet f).sweep.captureRequest }
      arbiter := { (s.loadedInQuiet f).arbiter with sweep := (s.loadInQuiet f).arbiter.sweep } } := by
  rw [State.loadInQuiet_eq]
  generalize s.loadedInQuiet f = v
  have hv := State.startNextJob_capture_frame { v with sweep := { v.sweep with captureRequest := some f.circuit } }
    f.circuit rfl
  exact hv

/-- R119: with a job running the capture waits. -/
theorem State.loadInQuiet_waits (hj : s.sweep.job ≠ .none) :
    (s.loadInQuiet f).sweep.job = s.sweep.job ∧ (s.loadInQuiet f).sweep.captureRequest = some f.circuit := by
  have hjob : (s.loadedInQuiet f).sweep.job = s.sweep.job := by rw [State.loadedInQuiet_frame]
  rw [State.loadInQuiet_eq]
  generalize s.loadedInQuiet f = v at hjob
  rw [State.startNextJob_busy]
  · exact ⟨hjob, rfl⟩
  · exact fun h => hj (hjob ▸ h)

/-- R119, R120, R121: with the engine idle the capture of a LOAD starts, and its first read is requested or held. -/
theorem State.loadInQuiet_starts (hj : s.sweep.job = .none) :
    (s.loadInQuiet f).sweep.job = .capture f.circuit 1 ∧ (s.loadInQuiet f).sweep.captureRequest = none
      ∧ (s.sweepOutstanding = false →
          (s.loadInQuiet f).arbiter.sweep = (if s.bufferHolds (s.connAddr (f.entries.getD 0 0)) then none
            else some { addr := s.connAddr (f.entries.getD 0 0) })
          ∧ (s.loadInQuiet f).sweep.held = if s.bufferHolds (s.connAddr (f.entries.getD 0 0)) then
            some (s.connAddr (f.entries.getD 0 0), none) else none) := by
  rw [State.loadInQuiet_eq]
  have hframe := s.loadedInQuiet_frame f
  have hentries : ((s.loadedInQuiet f).circuit f.circuit).entries = f.entries := by
    rw [State.loadedInQuiet_circuit, if_pos rfl]
    rfl
  generalize s.loadedInQuiet f = v at hframe hentries
  have hidle : v.sweep.job = .none := by rw [hframe]; exact hj
  rw [State.startNextJob_capture { v with sweep := { v.sweep with captureRequest := some f.circuit } } f.circuit hidle
    rfl]
  refine ⟨?_, ?_, fun ho => ?_⟩
  · rw [State.runJob_frame]
  · rw [State.runJob_frame]
  · have hconn : v.connAddr (f.entries.getD 0 0) = s.connAddr (f.entries.getD 0 0) := by
      rw [hframe]
      rfl
    have hholds : ∀ a, v.bufferHolds a = s.bufferHolds a := fun a => by rw [hframe]; rfl
    have hout : v.sweepOutstanding = false := by rw [hframe]; exact ho
    rw [State.runJob_ready _ _ (v.connAddr (f.entries.getD 0 0)) none]
    · rw [← hconn, ← hholds]
      exact ⟨rfl, rfl⟩
    · rw [← hentries]
      rfl
    · exact hout

/-- R156, R168: the event of a LOAD in hand that no check refuses. -/
theorem exec_load (h : s.inHand .load) (hr : s.loadRefusal = none) :
    exec .load s = .next (s.executeLoad s.loadInHand).endEvent := by
  obtain ⟨hreset, hstep, hkind⟩ := h
  refine (live_running s State.runLoad hreset).trans ?_
  simp [State.runLoad, hstep, hkind, hr]

/-! ### The answers of the checks (R18, R19) -/

/-- R18: the circuit number and the entry count of a LOAD are in range. -/
def LoadFields.named (f : LoadFields) : Prop := f.circuit < 512 ∧ 1 ≤ f.entryCount ∧ f.entryCount ≤ 6

/-- R18: and so are its entries, each listed once. -/
def LoadFields.listed (f : LoadFields) (l : Layout) : Prop :=
  f.named ∧ ∀ p, p < f.entries.length → ¬ badEntry l.connCount [] f.entries p

/-- R18: and its channel. -/
def LoadFields.inRange (f : LoadFields) (l : Layout) : Prop := f.listed l ∧ f.channel < l.channelCount

theorem LoadFields.loadRange_listed (l : Layout) (h : f.listed l) :
    loadRange (some l) f = if l.channelCount ≤ f.channel then some 0 else none := by
  rw [loadRange_named l f h.1, entryFailure_none _ _ _ h.2]
  rfl

theorem LoadFields.loadRange_inRange (l : Layout) (h : f.inRange l) : loadRange (some l) f = none := by
  rw [LoadFields.loadRange_listed f l h.1, if_neg (Nat.not_le.mpr h.2)]

/-- R19: a circuit or a channel of the tables belongs to nobody else. -/
def LoadFields.owns (f : LoadFields) (o : Option Nat) : Prop := o = none ∨ o = some f.circuit

/-- R18, R19: the first check that a LOAD fails gives the answer. -/
theorem State.loadRefusal_cases (l : Layout) (hl : s.layout = some l) :
    (¬ s.loadInHand.named → s.loadRefusal = some ⟨.refusedRange, 0⟩)
    ∧ (∀ p, s.loadInHand.named → p < s.loadInHand.entries.length → badEntry l.connCount [] s.loadInHand.entries p →
        (∀ q, q < p → ¬ badEntry l.connCount [] s.loadInHand.entries q) →
        s.loadRefusal = some ⟨.refusedRange, p + 1⟩)
    ∧ (s.loadInHand.listed l → l.channelCount ≤ s.loadInHand.channel → s.loadRefusal = some ⟨.refusedRange, 0⟩)
    ∧ (s.loadInHand.inRange l → s.window.state ≠ .quiet → s.window.state ≠ .opened →
        s.loadRefusal = some ⟨.refusedState, 512⟩)
    ∧ (s.loadInHand.inRange l → (s.window.state = .quiet ∨ s.window.state = .opened) →
        ¬ loadTaken s.window.state (s.circuit s.loadInHand.circuit).state →
        s.loadRefusal = some ⟨.refusedState, 0⟩)
    ∧ (s.loadInHand.inRange l → loadTaken s.window.state (s.circuit s.loadInHand.circuit).state →
        (∀ p c, p < s.loadInHand.entries.length →
          (s.mapEntry (s.loadInHand.entries.getD p 0)).owner = some c → c ≠ s.loadInHand.circuit →
          (∀ q, q < p → s.loadInHand.owns (s.mapEntry (s.loadInHand.entries.getD q 0)).owner) →
          s.loadRefusal = some ⟨.conflict, c⟩)
        ∧ ((∀ i ∈ s.loadInHand.entries, s.loadInHand.owns (s.mapEntry i).owner) →
            (∀ c, s.boundTo s.loadInHand.channel = some c → c ≠ s.loadInHand.circuit →
              s.loadRefusal = some ⟨.conflict, c⟩)
            ∧ (s.loadInHand.owns (s.boundTo s.loadInHand.channel) → s.loadRefusal = none))) := by
  have hrange : s.loadInHand.inRange l → loadRange s.layout s.loadInHand = none := fun h => by
    rw [hl, LoadFields.loadRange_inRange _ l h]
  refine ⟨fun h => s.loadRefusal_range 0 ?_, fun p hn hp hb hfirst => s.loadRefusal_range _ ?_,
    fun h hch => s.loadRefusal_range _ ?_, fun h hq ho => s.loadRefusal_state _ (hrange h) (loadState_window _ hq ho),
    fun h hw ht => s.loadRefusal_state _ (hrange h) (loadState_circuit hw ht), fun h ht => ?_⟩
  · rw [hl, loadRange_unnamed l _ h]
  · rw [hl, loadRange_named l _ hn, entryFailure_first _ [] _ p hp hb hfirst]
    simp
  · rw [hl, LoadFields.loadRange_listed _ l h, if_pos hch]
  · rw [s.loadRefusal_conflict (hrange h) (loadState_eq_none.mpr ht)]
    refine ⟨fun p c hp howner hc hfirst => ?_, fun hown => ⟨fun c hb hc => ?_, fun hb => ?_⟩⟩
    · rw [s.loadConflict_entry _ p c hp howner hc hfirst]
      rfl
    · rw [s.loadConflict_channel _ c hown hb hc]
      rfl
    · rw [(s.loadConflict_eq_none _).mpr ⟨hown, hb⟩]
      rfl

/-! ### O37 -/

/-- Settles O37: `loadedInQuiet` gives the tables, `loadInQuiet_starts` the capture, the lemmas on `loadRefusal` the
answers. -/
theorem loadInQuietStartsCapture : Obligations.LoadInQuietStartsCapture := by
  unfold Obligations.LoadInQuietStartsCapture
  refine ⟨fun s hand hrefusal hquiet hentries hchannels => ?_, State.loadPlaced_all, fun s l hl _ => ?_⟩
  · dsimp only
    generalize hf : s.loadInHand = f
    obtain ⟨-, hstate, -⟩ := s.loadRefusal_eq_none hrefusal
    rw [hf] at hstate
    have hloading : (s.circuit f.circuit).state ≠ .loading := fun h => by simp [h, hquiet, loadState] at hstate
    have hexec : s.executeLoad f = (s.loadInQuiet f).setDirectiveStep .held := if_pos hquiet
    refine ⟨_, exec_load s hand hrefusal, ?_⟩
    rw [hf, hexec]
    have hstarts := s.loadInQuiet_starts f
    have hstart := s.loadInQuiet_frame f
    have hkeep := s.loadInQuiet_waits f
    have hcircuit := s.loadedInQuiet_circuit f
    have hmap := s.loadedInQuiet_mapEntry f hentries hloading
    have hbound := s.loadedInQuiet_boundTo f hchannels
    have hevidence := s.loadedInQuiet_evidenceOf f hquiet
    have howes := s.loadedInQuiet_owes f hloading
    have hframe := s.loadedInQuiet_frame f
    generalize s.loadInQuiet f = t at hstarts hstart hkeep ⊢
    generalize s.loadedInQuiet f = v at hstart hcircuit hmap hbound hevidence howes hframe
    have hother : t = { v with
        sweep := { s.sweep with
          restoreList := s.sweep.restoreList.filter (· != f.circuit), job := t.sweep.job, held := t.sweep.held
          captureRequest := t.sweep.captureRequest }
        arbiter := { s.arbiter with sweep := t.arbiter.sweep } } := by
      rw [hstart, hframe]
    have hcircuits : ∀ k, t.circuit k = v.circuit k := fun k => by rw [hother]; rfl
    have hmaps : ∀ i, t.mapEntry i = v.mapEntry i := fun i => by rw [hother]; rfl
    have hbounds : ∀ ch, t.boundTo ch = v.boundTo ch := fun ch => by rw [hother]; rfl
    have hevidences : t.evidenceOf f.channel = v.evidenceOf f.channel := by rw [hother]; rfl
    have hlist : f.circuit ∉ t.sweep.restoreList := by
      rw [hother]
      simp
    have hrest : t.directive = s.directive ∧ t.window = s.window ∧ t.journal = s.journal ∧ t.pass = s.pass := by
      rw [hother, hframe]
      exact ⟨rfl, rfl, rfl, rfl⟩
    obtain ⟨hdirective, hwindow, hjournal, hpass⟩ := hrest
    have hreport : t.report = v.report := by rw [hother]
    simp only [State.setDirectiveStep_circuit, State.setDirectiveStep_mapEntry, State.setDirectiveStep_boundTo,
      State.setDirectiveStep_evidenceOf, State.setDirectiveStep_directive, State.setDirectiveStep_sweep,
      State.setDirectiveStep_arbiter, State.setDirectiveStep_report, State.setDirectiveStep_window,
      State.setDirectiveStep_journal, State.setDirectiveStep_pass, hcircuits, hmaps, hbounds, hevidences, hreport]
    refine ⟨?_, fun k hk => ?_, fun i hi => ?_, fun i hi hold => ?_, fun i hi hold => ?_, ?_, fun ch hch => ?_,
      fun h => ?_, fun h => ?_, hlist, by rw [hdirective], fun hj => ?_, hkeep, howes, hwindow, hjournal, hpass⟩
    · rw [hcircuit, if_pos rfl]
      rfl
    · rw [hcircuit, if_neg hk]
    · rw [hmap, if_pos hi]
    · rw [hmap, if_neg hi, if_pos hold]
    · rw [hmap, if_neg hi, if_neg hold]
    · rw [hbound, if_pos rfl]
    · rw [hbound, if_neg hch]
    · rw [hevidence, if_neg h]
    · rw [hevidence, if_pos h]
    · obtain ⟨hjob, hrequest, haccess⟩ := hstarts hj
      refine ⟨hjob, hrequest, fun ha hp => ?_⟩
      rw [← State.bufferHolds_eq]
      exact haccess (s.sweepOutstanding_eq_false ha hp)
  · exact s.loadRefusal_cases l hl

end Sys2Proof.Machine
end

section
/-! Settles O38: a LOAD in OPEN. -/

namespace Sys2Proof.Machine

variable (s : State)

/-! ### An EMPTY circuit (R22) -/

/-- R22: what a LOAD in OPEN sets in the record of an EMPTY circuit. -/
def Circuit.enterHeld (r : Circuit) : Circuit :=
  { r with baseline := none, reference := none, entryCondition := some .unknown, prior := none,
           changeCount := 0, undeclared := false, redeclared := false }

theorem State.loadEmptyInOpen_eq (f : LoadFields) :
    s.loadEmptyInOpen f
      = ((s.redefined f Circuit.enterHeld).setCircuitState f.circuit .held).setWorkMember f.circuit true := by
  have hheld : Circuit.enterHeld = fun r : Circuit =>
    { r with baseline := none, reference := none, entryCondition := some .unknown, prior := none,
             changeCount := 0, undeclared := false, redeclared := false } := rfl
  unfold State.loadEmptyInOpen State.redefined
  rw [hheld]

section
variable (f : LoadFields)

/-- R22: such a LOAD changes the circuit tables, the evidence, the work set and the reports owed, and nothing else. -/
theorem State.loadEmptyInOpen_frame :
    s.loadEmptyInOpen f = { s with
      store := (s.loadEmptyInOpen f).store
      trace := { s.trace with evidence := (s.loadEmptyInOpen f).trace.evidence }
      window := { s.window with workSet := (s.loadEmptyInOpen f).window.workSet }
      report := (s.loadEmptyInOpen f).report } := by
  rw [State.loadEmptyInOpen_eq, State.setWorkMember_frame]
  obtain ⟨m, ct, owed, wanted, b, hs⟩ :=
    State.setCircuitState_frame (s.redefined f Circuit.enterHeld) f.circuit .held
  rw [hs, State.redefined_frame]

theorem State.loadEmptyInOpen_circuit (k : Nat) :
    (s.loadEmptyInOpen f).circuit k = if k = f.circuit then
        { ((s.circuit f.circuit).defineBy f).enterHeld with state := .held }
      else s.circuit k := by
  have hmember : ∀ v : State, (v.setWorkMember f.circuit true).circuit k = v.circuit k := fun v => by
    rw [State.setWorkMember_frame]
    rfl
  rw [State.loadEmptyInOpen_eq, hmember, State.setCircuitState_circuit, State.redefined_circuit,
    State.redefined_circuit, if_pos rfl]
  split <;> rfl

/-- R22, R13: the entries of a HELD circuit are not fenced. -/
theorem State.loadEmptyInOpen_mapEntry (hstate : (s.circuit f.circuit).state ≠ .held)
    (hold : (s.circuit f.circuit).entries = []) (i : Nat) :
    (s.loadEmptyInOpen f).mapEntry i =
      if i ∈ f.entries then { owner := some f.circuit, fenced := false } else s.mapEntry i := by
  have hmember : ∀ v : State, (v.setWorkMember f.circuit true).mapEntry i = v.mapEntry i := fun v => by
    rw [State.setWorkMember_frame]
    rfl
  have hnew : (((s.circuit f.circuit).defineBy f).enterHeld).state ≠ .held ∧
      (((s.circuit f.circuit).defineBy f).enterHeld).entries = f.entries := ⟨hstate, rfl⟩
  rw [State.loadEmptyInOpen_eq, hmember, State.setCircuitState_mapEntry, State.redefined_circuit, if_pos rfl, hnew.2,
    State.redefined_mapEntry, hold]
  by_cases hi : i ∈ f.entries
  · rw [if_pos ⟨hnew.1, hi⟩, if_pos hi, if_pos ⟨hi, List.not_mem_nil⟩]
    dsimp only
    rw [State.putCircuit_fenceRule_self]
    rfl
  · rw [if_neg (fun h => hi h.2), if_neg hi, if_neg (fun h => hi h.1), if_neg (fun h => List.not_mem_nil h.1)]

theorem State.loadEmptyInOpen_boundTo (hchannel : (s.circuit f.circuit).channel = none) (ch : Nat) :
    (s.loadEmptyInOpen f).boundTo ch = if ch = f.channel then some f.circuit else s.boundTo ch := by
  have hmember : ∀ v : State, (v.setWorkMember f.circuit true).boundTo ch = v.boundTo ch := fun v => by
    rw [State.setWorkMember_frame]
    rfl
  rw [State.loadEmptyInOpen_eq, hmember, State.setCircuitState_boundTo, State.redefined_boundTo]
  · simp [hchannel]
  · simp [hchannel]

theorem State.loadEmptyInOpen_evidenceOf (hchannel : (s.circuit f.circuit).channel = none)
    (hw : s.window.state ≠ .verifying) (ch : Nat) :
    (s.loadEmptyInOpen f).evidenceOf ch = if ch = f.channel then {} else s.evidenceOf ch := by
  have hmember : ∀ v : State, (v.setWorkMember f.circuit true).evidenceOf ch = v.evidenceOf ch := fun v => by
    rw [State.setWorkMember_frame]
    rfl
  rw [State.loadEmptyInOpen_eq, hmember, State.setCircuitState_evidenceOf, State.redefined_evidenceOf_new _ _ _ _ _ hw]
  · simp [hchannel]
  · simp [hchannel]

theorem State.loadEmptyInOpen_member (k : Nat) :
    Table.get false (s.loadEmptyInOpen f).window.workSet k
      = if k = f.circuit then true else Table.get false s.window.workSet k := by
  obtain ⟨m, ct, owed, wanted, b, hs⟩ :=
    State.setCircuitState_frame (s.redefined f Circuit.enterHeld) f.circuit .held
  rw [State.loadEmptyInOpen_eq, State.setWorkMember_member, hs, State.redefined_frame]

end

/-! ### A HELD circuit (R23) -/

/-- R23: a different entry list replaces the old one. -/
def State.takeEntries (c : Nat) (new : List Nat) : State :=
  if (s.circuit c).entries = new then s
  else (s.retarget c new).mapCircuit c fun r => { r with baseline := none, redeclared := true }

/-- R23: a different channel is bound. -/
def State.takeChannel (c ch : Nat) : State :=
  if (s.circuit c).channel = some ch then s
  else (s.bind c ch).mapCircuit c fun r => { r with reference := none, entryCondition := some .unknown }

theorem State.takeEntries_frame (c : Nat) (new : List Nat) :
    s.takeEntries c new = { s with store := { s.store with
      circuits := (s.takeEntries c new).store.circuits, entryMap := (s.takeEntries c new).store.entryMap } } := by
  unfold State.takeEntries
  split
  · rfl
  · rw [State.retarget_frame]
    rfl

theorem State.takeEntries_circuit (c : Nat) (new : List Nat) (k : Nat) :
    (s.takeEntries c new).circuit k = if k = c then { s.circuit c with
        entries := new
        baseline := if new = (s.circuit c).entries then (s.circuit c).baseline else none
        redeclared := if new = (s.circuit c).entries then (s.circuit c).redeclared else true }
      else s.circuit k := by
  unfold State.takeEntries
  by_cases h : (s.circuit c).entries = new
  · subst h
    by_cases hk : k = c <;> simp [hk]
  · by_cases hk : k = c <;> simp [hk, h, Ne.symm h]

/-- R10, R23: an entry of the new list is the circuit's, and one no longer listed is free. -/
theorem State.takeEntries_mapEntry (c : Nat) (new : List Nat) (hagree : s.entriesAgree) (i : Nat) :
    (i ∈ new → ((s.takeEntries c new).mapEntry i).owner = some c)
      ∧ (i ∉ new → (s.takeEntries c new).mapEntry i = if i ∈ (s.circuit c).entries then {} else s.mapEntry i) := by
  unfold State.takeEntries
  by_cases h : (s.circuit c).entries = new
  · rw [if_pos h, ← h]
    exact ⟨(hagree i c).mpr, fun hi => (if_neg hi).symm⟩
  · rw [if_neg h, State.mapCircuit, State.putCircuit_mapEntry, State.retarget_mapEntry]
    refine ⟨fun hi => ?_, fun hi => by simp [hi]⟩
    by_cases hold : i ∈ (s.circuit c).entries
    · simpa [hi, hold] using (hagree i c).mpr hold
    · simp [hi, hold]

theorem State.takeChannel_frame (c ch : Nat) :
    s.takeChannel c ch = { s with
      store := { s.store with
        circuits := (s.takeChannel c ch).store.circuits, channelMap := (s.takeChannel c ch).store.channelMap }
      trace := { s.trace with evidence := (s.takeChannel c ch).trace.evidence } } := by
  unfold State.takeChannel
  split
  · rfl
  · rw [State.bind_frame]
    rfl

theorem State.takeChannel_circuit (c ch k : Nat) :
    (s.takeChannel c ch).circuit k = if k = c then { s.circuit c with
        channel := some ch
        reference := if (s.circuit c).channel = some ch then (s.circuit c).reference else none
        entryCondition :=
          if (s.circuit c).channel = some ch then (s.circuit c).entryCondition else some .unknown }
      else s.circuit k := by
  unfold State.takeChannel
  by_cases h : (s.circuit c).channel = some ch
  · by_cases hk : k = c <;> simp [hk, ← h]
  · by_cases hk : k = c <;> simp [hk, h]

/-- R11, R23: the channel of the LOAD is bound to the circuit. -/
theorem State.takeChannel_boundTo (c ch : Nat) (hagree : (s.circuit c).channel = some ch → s.boundTo ch = some c) :
    (s.takeChannel c ch).boundTo ch = some c := by
  unfold State.takeChannel
  by_cases h : (s.circuit c).channel = some ch
  · rw [if_pos h]
    exact hagree h
  · rw [if_neg h, State.mapCircuit, State.putCircuit_boundTo, State.bind_boundTo _ _ _ _ h, if_pos rfl]

theorem State.takeChannel_same (c ch : Nat) (h : (s.circuit c).channel = some ch) : s.takeChannel c ch = s := if_pos h

theorem State.takeChannel_evidenceOf (c ch : Nat) (h : (s.circuit c).channel ≠ some ch)
    (hw : s.window.state ≠ .verifying) : (s.takeChannel c ch).evidenceOf ch = {} := by
  unfold State.takeChannel
  rw [if_neg h, State.mapCircuit_evidenceOf, State.bind_evidenceOf _ _ _ _ h hw, if_pos rfl]

/-- R23: a LOAD in OPEN of a HELD circuit takes the parameters, the entries and the channel, one after another. -/
theorem State.loadHeldInOpen_eq (f : LoadFields) :
    s.loadHeldInOpen f = (((s.mapCircuit f.circuit fun r => r.takeParameters f).takeEntries f.circuit
      f.entries).takeChannel f.circuit f.channel) := by
  have hentries : ((s.mapCircuit f.circuit fun r => r.takeParameters f).circuit f.circuit).entries
      = (s.circuit f.circuit).entries := by simp [Circuit.takeParameters]
  have hchannel : (((s.mapCircuit f.circuit fun r => r.takeParameters f).takeEntries f.circuit
      f.entries).circuit f.circuit).channel = (s.circuit f.circuit).channel := by
    simp [State.takeEntries_circuit, Circuit.takeParameters]
  unfold State.loadHeldInOpen State.takeChannel
  rw [hchannel]
  unfold State.takeEntries
  rw [hentries]

section
variable (f : LoadFields)

theorem State.loadHeldInOpen_frame :
    s.loadHeldInOpen f = { s with
      store := (s.loadHeldInOpen f).store
      trace := { s.trace with evidence := (s.loadHeldInOpen f).trace.evidence } } := by
  rw [State.loadHeldInOpen_eq, State.takeChannel_frame, State.takeEntries_frame]
  rfl

theorem State.loadHeldInOpen_circuit (k : Nat) :
    (s.loadHeldInOpen f).circuit k = if k = f.circuit then { (s.circuit f.circuit).takeParameters f with
        entries := f.entries
        baseline := if f.entries = (s.circuit f.circuit).entries then (s.circuit f.circuit).baseline else none
        redeclared := if f.entries = (s.circuit f.circuit).entries then (s.circuit f.circuit).redeclared else true
        channel := some f.channel
        reference :=
          if (s.circuit f.circuit).channel = some f.channel then (s.circuit f.circuit).reference else none
        entryCondition := if (s.circuit f.circuit).channel = some f.channel then (s.circuit f.circuit).entryCondition
          else some .unknown }
      else s.circuit k := by
  rw [State.loadHeldInOpen_eq, State.takeChannel_circuit]
  by_cases hk : k = f.circuit
  · subst hk
    rw [if_pos rfl, if_pos rfl, State.takeEntries_circuit, if_pos rfl]
    simp [Circuit.takeParameters]
  · rw [if_neg hk, if_neg hk, State.takeEntries_circuit, if_neg hk]
    simp [hk]

theorem State.takeParameters_entriesAgree (hagree : s.entriesAgree) :
    (s.mapCircuit f.circuit fun r => r.takeParameters f).entriesAgree := by
  intro i c
  rw [State.mapCircuit, State.putCircuit_mapEntry, State.putCircuit_circuit, hagree i c]
  split
  · rename_i hc
    subst hc
    rfl
  · rfl

theorem State.loadHeldInOpen_mapEntry (hagree : s.entriesAgree) (i : Nat) :
    (i ∈ f.entries → ((s.loadHeldInOpen f).mapEntry i).owner = some f.circuit)
      ∧ (i ∉ f.entries → (s.loadHeldInOpen f).mapEntry i =
          if i ∈ (s.circuit f.circuit).entries then {} else s.mapEntry i) := by
  have hchannel : ∀ v : State, (v.takeChannel f.circuit f.channel).mapEntry i = v.mapEntry i := fun v => by
    rw [State.takeChannel_frame]
    rfl
  have hold : ((s.mapCircuit f.circuit fun r => r.takeParameters f).circuit f.circuit).entries
      = (s.circuit f.circuit).entries := by simp [Circuit.takeParameters]
  have htaken := State.takeEntries_mapEntry (s.mapCircuit f.circuit fun r => r.takeParameters f) f.circuit f.entries
    (s.takeParameters_entriesAgree f hagree) i
  rw [hold] at htaken
  rw [State.loadHeldInOpen_eq, hchannel]
  exact htaken

/-- R23: the parameters and the entries leave the channel, the channel map, the window and the evidence alone. -/
theorem State.listed_channel :
    (((s.mapCircuit f.circuit fun r => r.takeParameters f).takeEntries f.circuit f.entries).circuit
        f.circuit).channel = (s.circuit f.circuit).channel
      ∧ ((s.mapCircuit f.circuit fun r => r.takeParameters f).takeEntries f.circuit f.entries).boundTo = s.boundTo
      ∧ ((s.mapCircuit f.circuit fun r => r.takeParameters f).takeEntries f.circuit f.entries).window = s.window
      ∧ ((s.mapCircuit f.circuit fun r => r.takeParameters f).takeEntries f.circuit f.entries).trace = s.trace := by
  refine ⟨by simp [State.takeEntries_circuit, Circuit.takeParameters], ?_⟩
  rw [State.takeEntries_frame]
  exact ⟨rfl, rfl, rfl⟩

theorem State.loadHeldInOpen_boundTo (hagree : s.channelsAgree) :
    (s.loadHeldInOpen f).boundTo f.channel = some f.circuit := by
  obtain ⟨hchannel, hbound, -, -⟩ := s.listed_channel f
  rw [State.loadHeldInOpen_eq, State.takeChannel_boundTo]
  rw [hchannel, hbound]
  exact (hagree _ _).mpr

theorem State.loadHeldInOpen_trace_same (h : (s.circuit f.circuit).channel = some f.channel) :
    (s.loadHeldInOpen f).trace = s.trace := by
  obtain ⟨hchannel, -, -, htrace⟩ := s.listed_channel f
  rw [State.loadHeldInOpen_eq, State.takeChannel_same _ _ _ (hchannel.trans h), htrace]

theorem State.loadHeldInOpen_evidenceOf (h : (s.circuit f.circuit).channel ≠ some f.channel)
    (hw : s.window.state ≠ .verifying) : (s.loadHeldInOpen f).evidenceOf f.channel = {} := by
  obtain ⟨hchannel, -, hwindow, -⟩ := s.listed_channel f
  rw [State.loadHeldInOpen_eq, State.takeChannel_evidenceOf]
  · rwa [hchannel]
  · rwa [hwindow]

end

/-- R156, R168: out of QUIET a LOAD is answered DONE in the event that executes it. -/
theorem State.executeLoad_open (f : LoadFields) (hw : s.window.state ≠ .quiet) :
    s.executeLoad f = ((if (s.circuit f.circuit).state = .empty then s.loadEmptyInOpen f
      else s.loadHeldInOpen f).oweCircuit f.circuit).answerDirective ⟨.done, 0⟩ := if_neg hw

/-- Settles O38: the lemmas on `loadEmptyInOpen`, and those on `takeEntries` and `takeChannel` for a HELD circuit. -/
theorem loadInOpen : Obligations.LoadInOpen := by
  unfold Obligations.LoadInOpen
  refine ⟨fun s hand hrefusal hopen _ _ => ?_, fun s hand hrefusal hopen hentries hchannels => ?_, State.loadPlaced_all⟩
  · dsimp only
    generalize hf : s.loadInHand = f
    intro hempty hold hchannel
    have hquiet : s.window.state ≠ .quiet := by simp [hopen]
    have hverifying : s.window.state ≠ .verifying := by simp [hopen]
    refine ⟨_, exec_load s hand hrefusal, ?_⟩
    rw [hf, s.executeLoad_open f hquiet, if_pos hempty, State.answerDirective_plain _ _ rfl]
    have hcircuit := s.loadEmptyInOpen_circuit f
    have hmap := s.loadEmptyInOpen_mapEntry f (by simp [hempty]) hold
    have hbound := s.loadEmptyInOpen_boundTo f hchannel
    have hevidence := s.loadEmptyInOpen_evidenceOf f hchannel hverifying
    have hmember := s.loadEmptyInOpen_member f
    have hframe := s.loadEmptyInOpen_frame f
    generalize s.loadEmptyInOpen f = t at hcircuit hmap hbound hevidence hmember hframe ⊢
    have howes := (t.oweCircuit_owes f.circuit f.circuit).trans (if_pos rfl)
    have hrest : t.journal = s.journal ∧ t.sweep = s.sweep ∧ t.pass = s.pass := by
      rw [hframe]
      exact ⟨rfl, rfl, rfl⟩
    refine ⟨?_, fun k hk => ?_, hmap, hbound, hevidence, hmember, howes, hrest⟩
    · exact (hcircuit f.circuit).trans (if_pos rfl)
    · exact (hcircuit k).trans (if_neg hk)
  · dsimp only
    generalize hf : s.loadInHand = f
    intro hheld
    have hquiet : s.window.state ≠ .quiet := by simp [hopen]
    have hverifying : s.window.state ≠ .verifying := by simp [hopen]
    refine ⟨_, exec_load s hand hrefusal, ?_⟩
    rw [hf, s.executeLoad_open f hquiet, if_neg (by simp [hheld]), State.answerDirective_plain _ _ rfl]
    have hcircuit := s.loadHeldInOpen_circuit f
    have hmap := s.loadHeldInOpen_mapEntry f hentries
    have hbound := s.loadHeldInOpen_boundTo f hchannels
    have hsame := s.loadHeldInOpen_trace_same f
    have hnew := fun h => s.loadHeldInOpen_evidenceOf f h hverifying
    have hframe := s.loadHeldInOpen_frame f
    generalize s.loadHeldInOpen f = t at hcircuit hmap hbound hsame hnew hframe ⊢
    have howes := (t.oweCircuit_owes f.circuit f.circuit).trans (if_pos rfl)
    have hrest : t.window = s.window ∧ t.journal = s.journal ∧ t.sweep = s.sweep ∧ t.pass = s.pass := by
      rw [hframe]
      exact ⟨rfl, rfl, rfl, rfl⟩
    obtain ⟨hwindow, hjournal, hsweep, hpass⟩ := hrest
    refine ⟨?_, fun k hk => ?_, fun i => (hmap i).1, fun i => (hmap i).2, hbound, hsame, hnew, hwindow, howes, hjournal,
      hsweep, hpass⟩
    · exact (hcircuit f.circuit).trans (if_pos rfl)
    · exact (hcircuit k).trans (if_neg hk)

end Sys2Proof.Machine
end

section
/-! The first waiting job starts (R119): what it leaves alone, and the access it comes to (R120, R126, R130). -/

namespace Sys2Proof.Machine

/-! ### What the Sweep Engine leaves alone -/

/-- From `u` to `t` the Sweep Engine goes on with its work: the units around it stay, a free index stays free, and a
report owed stays owed. -/
structure SweepsOn (u t : State) : Prop where
  directive : t.directive = u.directive
  window : t.window = u.window
  trace : t.trace = u.trace
  pass : t.pass = u.pass
  fault : t.arbiter.fault = u.arbiter.fault
  boundTo : ∀ ch, t.boundTo ch = u.boundTo ch
  free : ∀ i, u.mapEntry i = {} → t.mapEntry i = {}
  owed : ∀ k, Table.get false u.report.owed k = true → Table.get false t.report.owed k = true

theorem SweepsOn.refl (u : State) : SweepsOn u u :=
  ⟨rfl, rfl, rfl, rfl, rfl, fun _ => rfl, fun _ => id, fun _ => id⟩

theorem SweepsOn.after {u v t : State} (h' : SweepsOn v t) (h : SweepsOn u v) : SweepsOn u t where
  directive := h'.directive.trans h.directive
  window := h'.window.trans h.window
  trace := h'.trace.trans h.trace
  pass := h'.pass.trans h.pass
  fault := h'.fault.trans h.fault
  boundTo ch := (h'.boundTo ch).trans (h.boundTo ch)
  free i hi := h'.free i (h.free i hi)
  owed k hk := h'.owed k (h.owed k hk)

variable (s : State)

theorem State.runJob_sweepsOn (j : Job) : SweepsOn s (s.runJob j) := by
  rw [State.runJob_frame]
  exact ⟨rfl, rfl, rfl, rfl, rfl, fun _ => rfl, fun _ => id, fun _ => id⟩

/-- R10, R13: an index without an owner stays unfenced when a circuit changes its state. -/
theorem State.setCircuitState_free (c : Nat) (st : CircuitState) (i : Nat) (h : s.mapEntry i = {}) :
    (s.setCircuitState c st).mapEntry i = {} := by
  rw [State.setCircuitState_mapEntry, h]
  split <;> rfl

theorem State.setCircuitState_owed (c : Nat) (st : CircuitState) (k : Nat)
    (h : Table.get false s.report.owed k = true) :
    Table.get false (s.setCircuitState c st).report.owed k = true := by
  by_cases hst : (s.circuit c).state = st
  · rw [State.setCircuitState_same s c st hst]
    exact h
  · obtain ⟨m, ct, b, hs, -, -⟩ := State.setCircuitState_change s c st hst
    rw [hs]
    simp [h]

theorem State.setCircuitState_sweepsOn (c : Nat) (st : CircuitState) : SweepsOn s (s.setCircuitState c st) := by
  obtain ⟨m, ct, owed, wanted, b, hs⟩ := State.setCircuitState_frame s c st
  refine ⟨?_, ?_, ?_, ?_, ?_, s.setCircuitState_boundTo c st, s.setCircuitState_free c st, s.setCircuitState_owed c st⟩
  all_goals rw [hs]

/-- R56, R127: the end of a drift sweep tells the journal, and may ask for the next sweep or the summary. -/
theorem State.driftSweepEnded_sweepsOn : SweepsOn s s.driftSweepEnded := by
  unfold State.driftSweepEnded State.clearOverrun State.wantSummaryIf State.markDriftDue
  repeat' split
  all_goals exact ⟨rfl, rfl, rfl, rfl, rfl, fun _ => rfl, fun _ => id, fun _ => id⟩

theorem State.startRestore_sweepsOn : SweepsOn s s.startRestore := by
  unfold State.startRestore
  split
  · exact SweepsOn.refl s
  · exact SweepsOn.after (State.runJob_sweepsOn _ _) <| SweepsOn.after (State.setCircuitState_sweepsOn _ _ _)
      ⟨rfl, rfl, rfl, rfl, rfl, fun _ => rfl, fun _ => id, fun _ => id⟩

theorem State.startDriftSweep_sweepsOn : SweepsOn s s.startDriftSweep := by
  have hbegun : SweepsOn s (if s.journal.demand = .owed then
      State.setDemand { s with sweep := { s.sweep with driftRequest := false } } .running
      else { s with sweep := { s.sweep with driftRequest := false } }) := by
    split
    all_goals exact ⟨rfl, rfl, rfl, rfl, rfl, fun _ => rfl, fun _ => id, fun _ => id⟩
  unfold State.startDriftSweep
  dsimp only
  split
  · exact SweepsOn.after (State.runJob_sweepsOn _ _) hbegun
  · exact SweepsOn.after (State.startRestore_sweepsOn _) <| SweepsOn.after (State.driftSweepEnded_sweepsOn _) hbegun

theorem State.startNextJob_sweepsOn : SweepsOn s s.startNextJob := by
  unfold State.startNextJob
  split
  · exact SweepsOn.refl s
  split
  · exact SweepsOn.after (State.runJob_sweepsOn _ _)
      ⟨rfl, rfl, rfl, rfl, rfl, fun _ => rfl, fun _ => id, fun _ => id⟩
  split
  · exact s.startDriftSweep_sweepsOn
  · exact s.startRestore_sweepsOn

/-! ### The first access of a job (R120) -/

/-- In `v` the port is free, and what decides where the engine's next access goes is as in `s`. -/
structure PortFreed (s v : State) : Prop where
  port : v.arbiter.port = none
  sweep : v.arbiter.sweep = s.arbiter.sweep
  layout : v.layout = s.layout
  pass : v.pass = s.pass

variable {s} {u v : State}

/-- R120: with the port freed a job that starts at a circuit requests its first access, or holds it. -/
theorem PortFreed.firstAccessMade (h : PortFreed s v) (j : Job) (k : Nat) (word : Option Word)
    (hj : State.sweepAccess { v with sweep := { v.sweep with job := j } }
      = some (v.connAddr ((v.circuit k).entries.getD 0 0), word)) :
    s.firstAccessMade (v.runJob j) k word := by
  intro ha
  have hout : v.sweepOutstanding = false := by
    refine v.sweepOutstanding_eq_false (h.sweep.trans ha) fun g hg => ?_
    rw [h.port] at hg
    cases hg
  have hconn : ∀ i, s.connAddr i = v.connAddr i := fun i => by simp only [State.connAddr, h.layout]
  have hentries : ((v.runJob j).circuit k).entries = (v.circuit k).entries := by
    rw [State.runJob_frame]
    rfl
  dsimp only
  rw [hentries, hconn, v.runJob_ready j _ word hj hout, State.bufferHolds_eq, h.pass]
  exact ⟨rfl, rfl⟩

theorem PortFreed.setCircuitState (h : PortFreed s v) (c : Nat) (st : CircuitState) :
    PortFreed s (v.setCircuitState c st) := by
  obtain ⟨m, ct, owed, wanted, b, hs⟩ := State.setCircuitState_frame v c st
  rw [hs]
  exact ⟨h.port, h.sweep, h.layout, h.pass⟩

/-! ### A restore starts (R130) -/

theorem OutsideState.outside_toState (o : OutsideState) : o.toState.outside = some o := by
  cases o <;> rfl

/-- R119, R130: the state in which the restore of circuit `k` takes up its job. -/
def State.restoring (v : State) (k : Nat) (rest : List Nat) : State :=
  (State.wantSummary { v with sweep := { v.sweep with restoreList := rest } }).setCircuitState k .restoring

theorem State.startRestore_nil (h : v.sweep.restoreList = []) : v.startRestore = v := by
  simp [State.startRestore, h]

theorem State.startRestore_cons (k : Nat) (rest : List Nat) (h : v.sweep.restoreList = k :: rest) :
    v.startRestore = (v.restoring k rest).runJob
      (.restore k 1 (((v.circuit k).state.outside).getD .drifted)) := by
  simp [State.startRestore, h, State.restoring]

theorem State.restoring_circuit (k : Nat) (rest : List Nat) (j : Nat) :
    (v.restoring k rest).circuit j = if j = k then { v.circuit k with state := .restoring } else v.circuit j := by
  rw [State.restoring, State.setCircuitState_circuit]
  rfl

theorem State.restoring_frame (k : Nat) (rest : List Nat) :
    v.restoring k rest = { v with
      store := (v.restoring k rest).store, sweep := { v.sweep with restoreList := rest }
      report := (v.restoring k rest).report } := by
  obtain ⟨m, ct, owed, wanted, b, hs⟩ := State.setCircuitState_frame
    (State.wantSummary { v with sweep := { v.sweep with restoreList := rest } }) k .restoring
  unfold State.restoring
  rw [hs]
  rfl

theorem PortFreed.restoring (h : PortFreed s v) (k : Nat) (rest : List Nat) : PortFreed s (v.restoring k rest) := by
  rw [State.restoring_frame]
  exact ⟨h.port, h.sweep, h.layout, h.pass⟩

/-- R119, R130: from `s` to `t` the head of the restore list starts, the circuits being `mid` before; with none the
engine is left idle. -/
def State.restoreStarts (s t : State) (mid : Nat → Circuit) (list : List Nat) : Prop :=
  (∀ k rest, list = k :: rest →
    t.circuit k = { mid k with state := .restoring }
    ∧ ∀ o, (mid k).state = OutsideState.toState o →
        t.sweep = { s.sweep with
          job := .restore k 1 o, held := t.sweep.held, driftRequest := false, restoreList := rest }
        ∧ s.firstAccessMade t k (some (((mid k).baseline.getD []).getD 0 0)))
  ∧ (list = [] →
      t.sweep = { s.sweep with job := .none, held := none, driftRequest := false, restoreList := [] }
        ∧ ∀ j, t.circuit j = mid j)

/-- R130: with no job running and no other one waiting, the restore of the list's head starts. -/
theorem State.startRestore_restoreStarts (list : List Nat) (hport : PortFreed s v)
    (hsweep : v.sweep = { s.sweep with job := .none, held := none, driftRequest := false, restoreList := list }) :
    s.restoreStarts v.startRestore v.circuit list := by
  refine ⟨fun k rest hlist => ?_, fun hlist => ?_⟩
  · rw [State.startRestore_cons k rest (by rw [hsweep, hlist])]
    refine ⟨?_, fun o ho => ⟨?_, ?_⟩⟩
    · rw [State.runJob_frame]
      exact (State.restoring_circuit k rest k).trans (if_pos rfl)
    · rw [State.runJob_frame, State.restoring_frame, ho, OutsideState.outside_toState, hsweep]
      rfl
    · refine (hport.restoring k rest).firstAccessMade _ k _ ?_
      have hbaseline : ((v.restoring k rest).circuit k).baseline = (v.circuit k).baseline := by
        rw [State.restoring_circuit, if_pos rfl]
      rw [← hbaseline]
      rfl
  · rw [State.startRestore_nil (by rw [hsweep, hlist])]
    exact ⟨by rw [hsweep, hlist], fun _ => rfl⟩

/-- R130: but for the head of the restore list, which becomes RESTORING, the circuits stay. -/
theorem State.startRestore_circuit (j : Nat) :
    v.startRestore.circuit j =
      if v.sweep.restoreList.head? = some j then { v.circuit j with state := .restoring } else v.circuit j := by
  cases hlist : v.sweep.restoreList with
  | nil => rw [State.startRestore_nil hlist]; rfl
  | cons k rest =>
    rw [State.startRestore_cons k rest hlist, State.runJob_frame]
    refine (State.restoring_circuit k rest j).trans ?_
    by_cases hj : j = k
    · subst hj
      simp
    · simp [hj, Ne.symm hj]

theorem State.startRestore_journal : v.startRestore.journal = v.journal := by
  cases hlist : v.sweep.restoreList with
  | nil => rw [State.startRestore_nil hlist]
  | cons k rest => rw [State.startRestore_cons k rest hlist, State.runJob_frame, State.restoring_frame]

/-! ### A drift sweep starts (R126, R127) -/

/-- R126: the first SETTLED circuit. -/
theorem State.nextSettled_zero_eq_some {n : Nat} :
    v.nextSettled 0 = some n ↔
      n < 512 ∧ (v.circuit n).state = .settled ∧ ∀ k, k < n → (v.circuit k).state ≠ .settled := by
  unfold State.nextSettled State.circuitsWhere
  rw [List.find?_filter, List.find?_range_eq_some]
  simp [Config.circuits]
  tauto

theorem State.nextSettled_zero_eq_none :
    v.nextSettled 0 = none ↔ ∀ k, k < 512 → (v.circuit k).state ≠ .settled := by
  unfold State.nextSettled State.circuitsWhere
  rw [List.find?_filter, List.find?_range_eq_none]
  simp [Config.circuits]

/-- R55, R126: the state in which a drift sweep takes up its job, its request cleared and an owed demand RUNNING. -/
def State.driftBegun (v : State) : State :=
  { v with
    sweep := { v.sweep with driftRequest := false }
    journal := { v.journal with demand := if v.journal.demand = .owed then .running else v.journal.demand } }

theorem State.startDriftSweep_eq :
    v.startDriftSweep = (v.nextSettled 0).elim v.driftBegun.driftSweepEnded.startRestore
      fun n => v.driftBegun.runJob (.driftSweep n 1) := by
  have hbegun : (if v.journal.demand = .owed then
      State.setDemand { v with sweep := { v.sweep with driftRequest := false } } .running
      else { v with sweep := { v.sweep with driftRequest := false } }) = v.driftBegun := by
    unfold State.driftBegun State.setDemand
    split <;> rfl
  have hnext : v.driftBegun.nextSettled 0 = v.nextSettled 0 := rfl
  unfold State.startDriftSweep
  dsimp only
  rw [hbegun, hnext]
  cases v.nextSettled 0 <;> rfl

theorem PortFreed.driftBegun (h : PortFreed s v) : PortFreed s v.driftBegun := ⟨h.port, h.sweep, h.layout, h.pass⟩

/-- R127: the end of a drift sweep changes the journal's marks, the request of the next and the summary mark. -/
theorem State.driftSweepEnded_frame :
    v.driftSweepEnded = { v with
      journal := v.driftSweepEnded.journal
      sweep := { v.sweep with driftRequest := v.driftSweepEnded.sweep.driftRequest }
      report := v.driftSweepEnded.report } := by
  unfold State.driftSweepEnded State.clearOverrun State.wantSummaryIf State.markDriftDue
  repeat' split
  all_goals rfl

/-- R56, R127: a drift sweep begun for an owed demand, ended at once, leaves no demand and no overrun. -/
theorem State.driftBegun_ended (h : v.journal.demand = .owed) :
    v.driftBegun.driftSweepEnded.journal = { v.journal with demand := .none, overrun := none }
      ∧ v.driftBegun.driftSweepEnded.sweep = { v.sweep with driftRequest := false } := by
  simp only [State.driftBegun, h, if_true, State.driftSweepEnded, State.clearOverrun, State.wantSummaryIf,
    State.setDemand]
  split <;> exact ⟨rfl, rfl⟩

/-- R119: but for the head of the restore list the circuits stay when a drift sweep starts. -/
theorem State.startDriftSweep_circuit (j : Nat) (h : v.sweep.restoreList.head? ≠ some j) :
    v.startDriftSweep.circuit j = v.circuit j := by
  rw [State.startDriftSweep_eq]
  cases v.nextSettled 0 with
  | some n =>
    rw [Option.elim_some, State.runJob_frame]
    rfl
  | none =>
    rw [Option.elim_none, State.startRestore_circuit, State.driftSweepEnded_frame]
    exact if_neg h

/-! ### The first waiting job (R119) -/

theorem State.startNextJob_drift (hj : v.sweep.job = .none) (hc : v.sweep.captureRequest = none)
    (hd : v.sweep.driftRequest = true) : v.startNextJob = v.startDriftSweep := by
  simp [State.startNextJob, hj, hc, hd]

theorem State.startNextJob_restore (hj : v.sweep.job = .none) (hc : v.sweep.captureRequest = none)
    (hd : v.sweep.driftRequest = false) : v.startNextJob = v.startRestore := by
  simp [State.startNextJob, hj, hc, hd]

/-- R119: but for the head of the restore list the circuits stay when the first waiting job starts. -/
theorem State.startNextJob_circuit (j : Nat) (hj : v.sweep.job = .none) (h : v.sweep.restoreList.head? ≠ some j) :
    v.startNextJob.circuit j = v.circuit j := by
  cases hc : v.sweep.captureRequest with
  | some k =>
    rw [v.startNextJob_capture k hj hc, State.runJob_frame]
    rfl
  | none =>
    cases hd : v.sweep.driftRequest with
    | true => rw [State.startNextJob_drift hj hc hd, State.startDriftSweep_circuit j h]
    | false => rw [State.startNextJob_restore hj hc hd, State.startRestore_circuit, if_neg h]

/-- R119, R126, R127: with no capture waiting, a requested drift sweep starts at the first SETTLED circuit; with none it
ends at once, and the restore starts. -/
theorem State.startDriftSweep_starts (list : List Nat) (hport : PortFreed s v) (hjournal : v.journal = s.journal)
    (hsweep : v.sweep = { s.sweep with job := .none, held := none, restoreList := list }) :
    (∀ n, n < 512 → (v.startDriftSweep.circuit n).state = .settled →
        (∀ k, k < n → (v.startDriftSweep.circuit k).state ≠ .settled) →
      v.startDriftSweep.sweep = { s.sweep with
        job := .driftSweep n 1, held := v.startDriftSweep.sweep.held, driftRequest := false, restoreList := list }
      ∧ v.startDriftSweep.journal = { s.journal with
          demand := if s.journal.demand = .owed then .running else s.journal.demand }
      ∧ (∀ j, v.startDriftSweep.circuit j = v.circuit j) ∧ s.firstAccessMade v.startDriftSweep n none)
    ∧ ((∀ k, k < 512 → (v.startDriftSweep.circuit k).state ≠ .settled) → s.journal.demand = .owed →
      v.startDriftSweep.journal = { s.journal with demand := .none, overrun := none }
        ∧ s.restoreStarts v.startDriftSweep v.circuit list) := by
  rw [State.startDriftSweep_eq]
  cases hnext : v.nextSettled 0 with
  | some m =>
    obtain ⟨hm, hsettled, hfirst⟩ := State.nextSettled_zero_eq_some.mp hnext
    rw [Option.elim_some]
    have hcircuit : ∀ j, (v.driftBegun.runJob (.driftSweep m 1)).circuit j = v.circuit j := fun j => by
      rw [State.runJob_frame]
      rfl
    simp only [hcircuit]
    refine ⟨fun n hn hset hbefore => ?_, fun h => absurd hsettled (h m hm)⟩
    have hnm : m = n := by
      rcases Nat.lt_trichotomy m n with h | h | h
      · exact absurd hsettled (hbefore m h)
      · exact h
      · exact absurd hset (hfirst n h)
    subst hnm
    refine ⟨?_, ?_, fun _ => trivial, hport.driftBegun.firstAccessMade _ m none rfl⟩
    · rw [State.runJob_frame]
      simp only [State.driftBegun, hsweep]
    · rw [State.runJob_frame]
      simp only [State.driftBegun, hjournal]
  | none =>
    have hnone := State.nextSettled_zero_eq_none.mp hnext
    rw [Option.elim_none]
    refine ⟨fun n hn hset _ => ?_, fun _ howed => ?_⟩
    · have hcircuit : v.driftBegun.driftSweepEnded.circuit n = v.circuit n := by
        rw [State.driftSweepEnded_frame]
        rfl
      rw [State.startRestore_circuit, hcircuit] at hset
      split at hset
      · cases hset
      · exact absurd hset (hnone n hn)
    · obtain ⟨hj, hs⟩ := State.driftBegun_ended (v := v) (by rw [hjournal, howed])
      have hcircuit : v.driftBegun.driftSweepEnded.circuit = v.circuit := by
        rw [State.driftSweepEnded_frame]
        rfl
      have hfreed : PortFreed s v.driftBegun.driftSweepEnded := by
        rw [State.driftSweepEnded_frame]
        exact ⟨hport.port, hport.sweep, hport.layout, hport.pass⟩
      refine ⟨by rw [State.startRestore_journal, hj, hjournal], ?_⟩
      rw [← hcircuit]
      exact State.startRestore_restoreStarts list hfreed (by rw [hs, hsweep])

/-- R119: where a job has ended, the start of the first waiting job is as `waitingJobStarts` spells it. -/
theorem State.startNextJob_waitingJobStarts (c : Nat) (last : Circuit) (list : List Nat) (hport : PortFreed s u)
    (hjournal : u.journal = s.journal)
    (hsweep : u.sweep = { s.sweep with job := .none, held := none, restoreList := list })
    (hcircuit : ∀ j, u.circuit j = if j = c then last else s.circuit j) :
    s.waitingJobStarts u.startNextJob c last list := by
  have hj : u.sweep.job = .none := by rw [hsweep]
  have hlist : u.sweep.restoreList = list := by rw [hsweep]
  have hrequests : u.sweep.captureRequest = s.sweep.captureRequest ∧ u.sweep.driftRequest = s.sweep.driftRequest := by
    rw [hsweep]
    exact ⟨rfl, rfl⟩
  unfold State.waitingJobStarts
  simp only [← hcircuit]
  refine ⟨fun j h => State.startNextJob_circuit j hj (hlist ▸ h), fun k hc => ?_, fun hc hd => ?_, fun hc hd => ?_⟩
  · rw [u.startNextJob_capture k hj (hrequests.1.trans hc)]
    have hbegun : PortFreed s { u with sweep := { u.sweep with captureRequest := none } } :=
      ⟨hport.port, hport.sweep, hport.layout, hport.pass⟩
    refine ⟨?_, ?_, fun j => ?_, hbegun.firstAccessMade _ k none rfl⟩
    · rw [State.runJob_frame]
      simp only [hsweep]
    · rw [State.runJob_frame]
      exact hjournal
    · rw [State.runJob_frame]
      rfl
  · rw [State.startNextJob_drift hj (hrequests.1.trans hc) (hrequests.2.trans hd)]
    exact State.startDriftSweep_starts list hport hjournal hsweep
  · rw [State.startNextJob_restore hj (hrequests.1.trans hc) (hrequests.2.trans hd)]
    refine ⟨State.startRestore_journal.trans hjournal, State.startRestore_restoreStarts list hport ?_⟩
    rw [hsweep, ← hd]

end Sys2Proof.Machine
end

section
/-! Settles O43: the reads of a capture, its end, and its failure (R21, R121). -/

namespace Sys2Proof.Machine

variable (s : State)

/-! ### The events -/

/-- R121: the completion of a capture read frees the port and takes the word. -/
theorem exec_captureReadComplete {r : Request} {c p : Nat} (data : Word) (h : s.inProgress .sweep r)
    (hstale : r.stale = false) (hjob : s.sweep.job = .capture c p) :
    exec (.captureReadComplete data) s = .next (s.freePort.takeCaptureWord c p data).endEvent := by
  obtain ⟨hreset, n, hport⟩ := h
  have hof : s.portOf .sweep = some r := by simp [State.portOf, hport]
  refine (live_running s (fun s => s.completeCaptureRead data) hreset).trans ?_
  simp [State.completeCaptureRead, hof, hjob, hstale]

/-- R45, R46: what the second failure of a Sweep Engine access has done before the engine is told. -/
def State.sweepFaulted (r : Request) : State := (s.freePort.writeFault r.addr .sweep 0).raise .busFault

theorem State.sweepFaulted_frame (r : Request) :
    s.sweepFaulted r = { s with
      arbiter := { s.arbiter with port := none, fault := ⟨r.addr, .sweep, 0⟩ }
      report := (s.sweepFaulted r).report } := by
  unfold State.sweepFaulted
  rw [State.raise_frame]
  rfl

/-- R17, R45, R121: the second failure of a capture read is recorded, and ends the capture. -/
theorem exec_captureFails {i : Instr} {r : Request} {c p : Nat} (hi : failsAccess i) (h : s.inProgress .sweep r)
    (hretry : r.retry = true) (hstale : r.stale = false) (hjob : s.sweep.job = .capture c p) :
    exec i s = .next ((s.sweepFaulted r).failCapture c p).endEvent := by
  obtain ⟨hreset, n, hport⟩ := h
  have hfail : s.failAccess = (s.sweepFaulted r).failSweep := by
    simp [State.failAccess, hport, hretry, State.failInternal, hstale, State.sweepFaulted, Requester.faultKind]
  have hsweep : (s.sweepFaulted r).failSweep = (s.sweepFaulted r).failCapture c p := by
    have hcapture : (s.sweepFaulted r).sweep.job = .capture c p := by
      rw [State.sweepFaulted_frame]
      exact hjob
    simp [State.failSweep, hcapture]
  have hexec : exec i s = live State.failAccess s := by
    rcases hi with rfl | rfl <;> rfl
  rw [hexec, live_running s _ hreset, hfail, hsweep]

/-! ### The capture goes on -/

/-- R121: the word read joins the circuit's baseline. -/
def State.keepWord (c : Nat) (data : Word) : State :=
  s.freePort.mapCircuit c fun r => { r with baseline := some (r.baseline.getD [] ++ [data]) }

theorem State.takeCaptureWord_eq (c p : Nat) (data : Word) :
    s.freePort.takeCaptureWord c p data =
      if p < (s.circuit c).entries.length then (s.keepWord c data).runJob (.capture c (p + 1))
      else (s.keepWord c data).finishCapture c := rfl

theorem State.keepWord_circuit (c : Nat) (data : Word) (k : Nat) :
    (s.keepWord c data).circuit k = if k = c then
        { s.circuit c with baseline := some ((s.circuit c).baseline.getD [] ++ [data]) }
      else s.circuit k := by
  unfold State.keepWord
  by_cases hk : k = c
  · subst hk
    simp
  · simp [hk]

theorem State.keepWord_frame (c : Nat) (data : Word) :
    s.keepWord c data = { s with
      store := { s.store with circuits := (s.keepWord c data).store.circuits }
      arbiter := { s.arbiter with port := none } } := rfl

/-- R120, R121: with entries left the next one's read is requested or held. -/
theorem State.keepWord_runJob (c p : Nat) (data : Word) (ha : s.arbiter.sweep = none) :
    (s.keepWord c data).runJob (.capture c (p + 1)) = { s.keepWord c data with
      sweep := { s.sweep with
        job := .capture c (p + 1)
        held := if s.bufferHolds (s.connAddr ((s.circuit c).entries.getD p 0)) then
          some (s.connAddr ((s.circuit c).entries.getD p 0), none) else none }
      arbiter := { s.arbiter with
        port := none
        sweep := if s.bufferHolds (s.connAddr ((s.circuit c).entries.getD p 0)) then none
          else some { addr := s.connAddr ((s.circuit c).entries.getD p 0) } } } := by
  have hout : (s.keepWord c data).sweepOutstanding = false :=
    State.sweepOutstanding_eq_false _ ha fun g hg => by cases hg
  have hentries : ((s.keepWord c data).circuit c).entries = (s.circuit c).entries := by
    rw [State.keepWord_circuit, if_pos rfl]
  have haccess : State.sweepAccess { s.keepWord c data with
      sweep := { (s.keepWord c data).sweep with job := .capture c (p + 1) } }
      = some (s.connAddr ((s.circuit c).entries.getD p 0), none) := by
    rw [← hentries]
    rfl
  rw [State.runJob_ready _ _ _ _ haccess hout]
  rfl

/-! ### The capture ends -/

/-- R21: the circuit judged by its capture. -/
def State.captureJudged (c : Nat) : State :=
  ((s.mapCircuit c fun r => { r with suspect := false }).setCircuitState c
    (if (s.circuit c).suspect then .drifted else .settled)).oweCircuit c

/-- R21: what the end of a capture does before the next job starts. -/
def State.captureDone (c : Nat) : State := (s.captureJudged c).endJob.answerDirective ⟨.done, 0⟩

theorem State.finishCapture_eq (c : Nat) : s.finishCapture c = (s.captureDone c).startNextJob := rfl

theorem State.captureJudged_frame (c : Nat) :
    s.captureJudged c = { s with store := (s.captureJudged c).store, report := (s.captureJudged c).report } := by
  unfold State.captureJudged
  obtain ⟨m, ct, owed, wanted, b, hs⟩ := State.setCircuitState_frame (s.mapCircuit c fun r =>
    { r with suspect := false }) c (if (s.circuit c).suspect then .drifted else .settled)
  rw [hs]
  rfl

theorem State.captureDone_frame (c : Nat) :
    s.captureDone c = { s with
      store := (s.captureDone c).store
      sweep := { s.sweep with job := .none, held := none }
      arbiter := { s.arbiter with directive := (s.captureDone c).arbiter.directive }
      directive := { s.directive with
        step := .completing (s.directive.completionWords ⟨.done, 0⟩) s.directive.chain.length }
      report := (s.captureDone c).report } := by
  have hjudged := s.captureJudged_frame c
  unfold State.captureDone
  generalize s.captureJudged c = v at hjudged
  rw [State.answerDirective_plain _ _ rfl, hjudged]
  rfl

theorem State.captureDone_circuit (c k : Nat) :
    (s.captureDone c).circuit k = if k = c then
        { s.circuit c with suspect := false, state := if (s.circuit c).suspect then .drifted else .settled }
      else s.circuit k := by
  have hanswer : ∀ v : State, (v.endJob.answerDirective ⟨.done, 0⟩).circuit k = v.circuit k := fun v => by
    rw [State.answerDirective_plain _ _ rfl]
    rfl
  unfold State.captureDone State.captureJudged
  rw [hanswer, State.oweCircuit_circuit, State.setCircuitState_circuit]
  by_cases hk : k = c
  · subst hk
    simp
  · simp [hk]

theorem State.captureDone_owes (c : Nat) : Table.get false (s.captureDone c).report.owed c = true := by
  have howes : ∀ v : State,
      Table.get false ((v.oweCircuit c).endJob.answerDirective ⟨.done, 0⟩).report.owed c = true := fun v => by
    rw [State.answerDirective_plain _ _ rfl]
    exact (v.oweCircuit_owes c c).trans (if_pos rfl)
  exact howes _

/-! ### The capture fails -/

/-- R21: what the failure of a capture does before the next job starts. -/
def State.captureFailed (c p : Nat) : State := ((s.release c).endJob).answerDirective ⟨.fault, p⟩

theorem State.failCapture_eq (c p : Nat) : s.failCapture c p = (s.captureFailed c p).startNextJob := rfl

theorem State.captureFailed_frame (c p : Nat) :
    s.captureFailed c p = { s.release c with
      sweep := { s.sweep with
        job := .none, held := none, restoreList := s.sweep.restoreList.filter fun k => decide (k ≠ c) }
      arbiter := { s.arbiter with directive := (s.captureFailed c p).arbiter.directive }
      directive := { s.directive with
        step := .completing (s.directive.completionWords ⟨.fault, p⟩) s.directive.chain.length } } := by
  have hframe := s.release_frame c
  unfold State.captureFailed
  rw [State.answerDirective_plain _ _ rfl]
  generalize s.release c = v at hframe
  rw [hframe, filter_bne]
  rfl

/-! ### O43 -/

/-- Settles O43: a read kept, then the end of the capture by `startNextJob_waitingJobStarts`; a failure releases the
circuit and ends in the same way. -/
theorem captureReads : Obligations.CaptureReads := by
  unfold Obligations.CaptureReads
  refine ⟨fun s r c p data hprogress hstale hidle hjob => ?_,
    fun i s r c p hi hprogress hretry hstale hjob hloading => ?_⟩
  · dsimp only
    refine ⟨fun hp => ?_, fun hp _ => ?_⟩
    · refine ⟨_, exec_captureReadComplete s data hprogress hstale hjob, ?_⟩
      rw [s.takeCaptureWord_eq, if_pos hp, s.keepWord_runJob c p data hidle, ← State.bufferHolds_eq]
      exact ⟨rfl, s.keepWord_circuit c data⟩
    · refine ⟨_, exec_captureReadComplete s data hprogress hstale hjob, ?_⟩
      rw [s.takeCaptureWord_eq, if_neg (Nat.not_lt.mpr hp), State.finishCapture_eq]
      have hkept := s.keepWord_circuit c data
      have hkeep := s.keepWord_frame c data
      generalize s.keepWord c data = v at hkept hkeep ⊢
      have hcircuit := v.captureDone_circuit c
      have howes := v.captureDone_owes c
      have hframe := v.captureDone_frame c
      generalize v.captureDone c = u at hcircuit howes hframe ⊢
      have hstarts : s.waitingJobStarts u.startNextJob c _ s.sweep.restoreList :=
        State.startNextJob_waitingJobStarts c { s.circuit c with
            baseline := some ((s.circuit c).baseline.getD [] ++ [data]), suspect := false
            state := if (s.circuit c).suspect then .drifted else .settled } s.sweep.restoreList
          (by rw [hframe, hkeep]; exact ⟨rfl, rfl, rfl, rfl⟩) (by rw [hframe, hkeep]) (by rw [hframe, hkeep])
          (fun k => by
            rw [hcircuit, hkept, hkept, if_pos rfl]
            split <;> rfl)
      have hrest : u.directive = { s.directive with
            step := .completing (s.directive.completionWords ⟨.done, 0⟩) s.directive.chain.length }
          ∧ u.window = s.window ∧ u.trace = s.trace ∧ u.pass = s.pass := by
        rw [hframe, hkeep]
        exact ⟨rfl, rfl, rfl, rfl⟩
      obtain ⟨hdirective, hwindow, htrace, hpass⟩ := hrest
      have hon := u.startNextJob_sweepsOn
      exact ⟨hstarts, hon.owed c howes, hon.directive.trans hdirective, hon.window.trans hwindow,
        hon.trace.trans htrace, hon.pass.trans hpass⟩
  · dsimp only
    refine ⟨_, exec_captureFails s hi hprogress hretry hstale hjob, ?_⟩
    rw [State.failCapture_eq]
    have hfault := s.sweepFaulted_frame r
    generalize s.sweepFaulted r = v at hfault ⊢
    have hold : v.circuit = s.circuit ∧ v.window = s.window ∧ v.boundTo = s.boundTo ∧ v.evidenceOf = s.evidenceOf
        ∧ v.mapEntry = s.mapEntry := by
      rw [hfault]
      exact ⟨rfl, rfl, rfl, rfl, rfl⟩
    obtain ⟨hcircuits, hwindows, hbounds, hevidences, hmaps⟩ := hold
    have hcircuit := v.release_circuit c
    have hmap := v.release_mapEntry c
    have hbound := v.release_boundTo c
    have hevidence := v.release_evidenceOf c
    have hmember := v.release_member c
    have howes := v.release_owes c (by rw [hcircuits, hloading]; decide)
    have hrelease := v.release_frame c
    have hframe := v.captureFailed_frame c p
    rw [hcircuits] at hcircuit hmap hbound hevidence
    rw [hbounds] at hbound
    rw [hevidences] at hevidence
    rw [hmaps] at hmap
    rw [hwindows] at hmember
    generalize v.captureFailed c p = u at hframe ⊢
    generalize v.release c = w at hcircuit hmap hbound hevidence hmember howes hrelease hframe
    have hleft : u.circuit = w.circuit ∧ u.mapEntry = w.mapEntry ∧ u.boundTo = w.boundTo
        ∧ u.evidenceOf = w.evidenceOf ∧ u.window = w.window ∧ u.report = w.report := by
      rw [hframe]
      exact ⟨rfl, rfl, rfl, rfl, rfl, rfl⟩
    obtain ⟨huc, hum, hub, hue, huw, hur⟩ := hleft
    have hstarts : s.waitingJobStarts u.startNextJob c { fenceHits := (s.circuit c).fenceHits }
        (s.sweep.restoreList.filter fun k => decide (k ≠ c)) :=
      State.startNextJob_waitingJobStarts c _ _
        (by rw [hframe, hrelease, hfault]; exact ⟨rfl, rfl, rfl, rfl⟩) (by rw [hframe, hrelease, hfault])
        (by rw [hframe, hfault]) (fun k => by rw [huc, hcircuit])
    have hrest : u.directive = { s.directive with
          step := .completing (s.directive.completionWords ⟨.fault, p⟩) s.directive.chain.length }
        ∧ u.arbiter.fault = ⟨r.addr, .sweep, 0⟩ ∧ u.pass = s.pass
        ∧ w.window = { s.window with workSet := w.window.workSet } := by
      rw [hframe, hrelease, hfault]
      exact ⟨rfl, rfl, rfl, rfl⟩
    obtain ⟨hdirective, hfaulted, hpass, hwindow⟩ := hrest
    have hon := u.startNextJob_sweepsOn
    have hwindow' : u.startNextJob.window = w.window := hon.window.trans huw
    refine ⟨hstarts, fun k hk => hon.free k ?_, fun ch hch => (hon.boundTo ch).trans ?_, hon.owed c ?_,
      hon.fault.trans hfaulted, hon.directive.trans hdirective, fun ch => ?_, ?_, fun k => ?_, hon.pass.trans hpass⟩
    · rw [hum, hmap, if_pos hk]
    · rw [hub, hbound, if_pos hch]
    · rw [hur]
      exact howes
    · rw [State.evidenceOf, hon.trace]
      exact (congrFun hue ch).trans (hevidence ch)
    · rw [hwindow']
      exact hwindow
    · rw [hwindow']
      exact hmember k

end Sys2Proof.Machine
end

section
/-!
The classification of one record (R57, R58), and the entry to SWEEPING that it, or the settle expiry, may bring (R64,
R110, R111); first the facts about raised causes, kept stores and second failures that this and later parts rest on.
-/

namespace Sys2Proof.Machine

variable (s : State)

/-! ### Attention (R169) -/

/-- R169: a raise leaves the owed reports and ASSURED as they were. -/
theorem State.raise_marks (c : Cause) :
    (s.raise c).report.owed = s.report.owed ∧ (s.raise c).report.windowOwed = s.report.windowOwed
      ∧ (s.raise c).report.assured = s.report.assured := by
  rw [State.raise_frame]
  exact ⟨rfl, rfl, rfl⟩

/-- R169: what a raise makes of the Report Unit rests on the Report Unit. -/
theorem State.raise_report_congr {t : State} (c : Cause) (h : t.report = s.report) :
    (t.raise c).report = (s.raise c).report := by
  unfold State.raise
  dsimp only
  rw [h]
  split
  · exact h
  · rfl

theorem State.raise_store (c : Cause) : (s.raise c).store = s.store := by rw [State.raise_frame]

variable {s}

/-- R169: a cause raised with its enable set is pending. -/
theorem State.raise_pends (x : Cause) (h : s.report.enables.getLsbD x.bit = true) :
    (s.raise x).report.pending.getLsbD x.bit = true := by
  have hne : s.report.enables &&& x.mask ≠ 0 := fun h0 => by
    rw [Cause.mask_and_eq_zero, h] at h0
    cases h0
  rw [s.raise_enabled x hne]
  simp [Cause.mask_bit]

/-- R169: what a raise makes of the pending set rests on the pending set and the enables. -/
theorem State.raise_pending_congr {t : State} (x : Cause) (hp : t.report.pending = s.report.pending)
    (he : t.report.enables = s.report.enables) : (t.raise x).report.pending = (s.raise x).report.pending := by
  by_cases h : s.report.enables &&& x.mask = 0
  · rw [s.raise_disabled x h, t.raise_disabled x (he ▸ h), hp]
  · rw [s.raise_enabled x h, t.raise_enabled x (he ▸ h)]
    simp only [hp]

/-- R168: a raise keeps the summary wanted. -/
theorem State.raise_wanted (x : Cause) (h : s.report.wanted = true) : (s.raise x).report.wanted = true := by
  by_cases he : s.report.enables &&& x.mask = 0
  · rw [s.raise_disabled x he, h]
  · rw [s.raise_enabled x he]
    simp [h]

/-! ### Reading a Circuit Store that has been kept -/

theorem State.circuit_of_store {t : State} (h : t.store = s.store) (k : Nat) : t.circuit k = s.circuit k := by
  simp only [State.circuit, h]

theorem State.mapEntry_of_store {t : State} (h : t.store = s.store) (k : Nat) : t.mapEntry k = s.mapEntry k := by
  simp only [State.mapEntry, h]

theorem State.count_of_store {t : State} (h : t.store = s.store) (x : CircuitState) : t.count x = s.count x := by
  simp only [State.count, h]

/-- R171: the assured condition rests on the Circuit Store and the window. -/
theorem State.assuredCondition_congr {t : State} (hs : t.store = s.store) (hw : t.window = s.window) :
    t.assuredCondition = s.assuredCondition := by
  simp only [State.assuredCondition, State.count_of_store hs, hw]

/-! ### A second failure (R45) -/

/-- R42, R45: the second failure of an internal access frees the port and is told to its requester. -/
theorem exec_secondFailure {i : Instr} {who : Requester} {r : Request} (hi : failsAccess i) (h : s.inProgress who r)
    (hwho : who ≠ .passPath) (hretry : r.retry = true) :
    exec i s = .next (s.freePort.failInternal who r).endEvent := by
  obtain ⟨hreset, n, hport⟩ := h
  have hexec : exec i s = live State.failAccess s := by
    rcases hi with rfl | rfl <;> rfl
  rw [hexec, live_running s _ hreset]
  cases who with
  | passPath => exact absurd rfl hwho
  | directive | sweep | report => simp [State.failAccess, hport, hretry]

variable (s)

/-! ### The window concludes (R143) -/

/-- R143: a conclusion changes the window state, the verdict timers, the silence timers and the marks, and nothing
else. -/
theorem State.conclude_frame :
    s.conclude = { s with
      window := { s.window with state := .concluded }
      verdict := { limit := s.verdict.limit.stop, steady := s.verdict.steady.stop }
      trace := { s.trace with evidence := s.conclude.trace.evidence }
      report := s.conclude.report } := by
  obtain ⟨ev, hev⟩ := s.stopVerdictTimers.stopSilence_some
  unfold State.conclude
  rw [State.raise_frame, State.setWindowState_frame, hev]
  rfl

/-- R143: a conclusion owes no CIRCUIT report. -/
theorem State.conclude_owed : s.conclude.report.owed = s.report.owed := by
  obtain ⟨ev, hev⟩ := s.stopVerdictTimers.stopSilence_some
  refine (State.raise_marks _ .concluded).1.trans ?_
  rw [hev]
  unfold State.setWindowState
  split <;> rfl

/-- R98, R143: a window that concludes makes a WINDOW report owed. -/
theorem State.conclude_windowOwed (h : s.window.state ≠ .concluded) : s.conclude.report.windowOwed = true := by
  obtain ⟨ev, hev⟩ := s.stopVerdictTimers.stopSilence_some
  refine (State.raise_marks _ .concluded).2.1.trans ?_
  rw [hev, State.setWindowState_owes _ _ (by exact h)]

/-- R125, R136: an entry to VERIFYING with no window circuit concludes the window. -/
theorem State.enterVerifying_nil (chosen : Circuit → Bool) (h : s.windowCircuits = []) :
    s.enterVerifying chosen = (State.setWindowState { s with
      verdict := {
        limit := VerdictTimer.start s.window.verifyLimit
        steady := s.verdict.steady.stop } } .verifying).conclude := by
  have hchosen : (s.circuitsWhere fun r => r.state.inWindow && chosen r) = [] := by
    unfold State.windowCircuits State.circuitsWhere at h
    unfold State.circuitsWhere
    rw [List.filter_eq_nil_iff] at h ⊢
    intro c hc
    simp [h c hc]
  have hstays : ∀ t : State, t.store = s.store → t.windowCircuits = [] := fun t ht => by
    simpa only [State.windowCircuits, State.circuitsWhere, State.circuit, ht] using h
  unfold State.enterVerifying
  rw [hchosen]
  simp only [State.forEach, List.foldl_nil, h]
  refine if_pos (hstays _ ?_)
  rw [State.setWindowState_frame]

/-! ### The entry to SWEEPING (R111) -/

/-- R111: the set of a close sweep that starts now. -/
def State.closeSet : List Nat := if s.window.overrun then s.loadedCircuits else s.windowCircuits

/-- R109, R111: the window in SWEEPING, before the Sweep Engine takes up its set. -/
def State.sweeping : State :=
  State.setWindowState { s with window := { s.window with settle := .stopped } } .sweeping

/-- R125, R135: the window in VERIFYING after a close sweep of no circuit. -/
def State.sweptNothing : State :=
  State.setWindowState { s.sweeping.endJob with
    verdict := {
      limit := VerdictTimer.start s.window.verifyLimit
      steady := s.verdict.steady.stop } } .verifying

theorem State.sweeping_frame :
    s.sweeping = { s with
      window := { s.window with state := .sweeping, settle := .stopped }, report := s.sweeping.report } := by
  unfold State.sweeping
  rw [State.setWindowState_frame]

/-- R98: the entry to SWEEPING makes a WINDOW report owed, and ASSURED is low. -/
theorem State.sweeping_report (h : s.window.state ≠ .sweeping) :
    s.sweeping.report = { s.report with windowOwed := true, wanted := true, assured := false } := by
  unfold State.sweeping
  rw [State.setWindowState_owes _ _ (by exact h)]
  simp [State.assuredCondition]

theorem State.sweptNothing_frame :
    s.sweptNothing = { s with
      window := { s.window with state := .verifying, settle := .stopped }
      sweep := { s.sweep with job := .none, held := none }
      verdict := { limit := VerdictTimer.start s.window.verifyLimit, steady := s.verdict.steady.stop }
      report := s.sweptNothing.report } := by
  unfold State.sweptNothing
  rw [State.setWindowState_frame, State.sweeping_frame]
  rfl

/-- R111, R122: a close sweep starts at the first circuit of its set. -/
theorem State.enterSweeping_cons {c : Nat} {rest : List Nat} (h : s.closeSet = c :: rest) :
    s.enterSweeping = s.sweeping.runJob (.closeSweep (c :: rest) c 1 []) := by
  have hset : s.enterSweeping = s.sweeping.sweepOn s.closeSet 0 := rfl
  rw [hset, h]
  simp [State.sweepOn]

/-- R2: a window circuit is loaded. -/
theorem CircuitState.loaded_of_inWindow {st : CircuitState} (h : st.inWindow = true) : st.loaded = true := by
  unfold CircuitState.loaded
  rw [decide_eq_true_iff]
  rintro rfl
  cases h

/-- R125, R136: a close sweep of no circuit has ended at once, and the window concludes. -/
theorem State.enterSweeping_nil (h : s.closeSet = []) : s.enterSweeping = s.sweptNothing.conclude := by
  have hnone : s.windowCircuits = [] := by
    unfold State.closeSet at h
    split at h
    · unfold State.loadedCircuits State.circuitsWhere at h
      unfold State.windowCircuits State.circuitsWhere
      rw [List.filter_eq_nil_iff] at h ⊢
      intro c hc hin
      exact h c hc (CircuitState.loaded_of_inWindow hin)
    · exact h
  have hset : s.enterSweeping = s.sweeping.sweepOn s.closeSet 0 := rfl
  have hidle : s.sweeping.endJob.windowCircuits = [] := by
    rw [State.sweeping_frame]
    exact hnone
  have hkept : s.sweeping.endJob.window.verifyLimit = s.window.verifyLimit
      ∧ s.sweeping.endJob.verdict = s.verdict := by
    rw [State.sweeping_frame]
    exact ⟨rfl, rfl⟩
  have hend : s.sweeping.sweepOn [] 0 = s.sweeping.endJob.enterVerifying fun r => !r.isUnreadable := rfl
  rw [hset, h, hend, State.enterVerifying_nil _ _ hidle, hkept.1, hkept.2]
  rfl

/-- R64, R110, R111: what the end of SETTLING leaves as it was, whether or not it comes. -/
structure SettlingEnds (u t : State) : Prop where
  store : t.store = u.store
  journal : t.journal = u.journal
  pass : t.pass = u.pass
  directive : t.directive = u.directive
  layout : t.layout = u.layout
  arrivals : t.trace.arrivals = u.trace.arrivals
  workSet : t.window.workSet = u.window.workSet
  owed : t.report.owed = u.report.owed
  pending : ∀ n, u.report.pending.getLsbD n = true → t.report.pending.getLsbD n = true

theorem SettlingEnds.refl (u : State) : SettlingEnds u u :=
  ⟨rfl, rfl, rfl, rfl, rfl, rfl, rfl, rfl, fun _ => id⟩

theorem SettlingEnds.after {u v t : State} (h' : SettlingEnds v t) (h : SettlingEnds u v) : SettlingEnds u t where
  store := h'.store.trans h.store
  journal := h'.journal.trans h.journal
  pass := h'.pass.trans h.pass
  directive := h'.directive.trans h.directive
  layout := h'.layout.trans h.layout
  arrivals := h'.arrivals.trans h.arrivals
  workSet := h'.workSet.trans h.workSet
  owed := h'.owed.trans h.owed
  pending n hn := h'.pending n (h.pending n hn)

theorem State.runJob_settlingEnds (j : Job) : SettlingEnds s (s.runJob j) := by
  rw [State.runJob_frame]
  exact ⟨rfl, rfl, rfl, rfl, rfl, rfl, rfl, rfl, fun _ => id⟩

theorem State.setWindowState_settlingEnds (w : WindowState) : SettlingEnds s (s.setWindowState w) := by
  unfold State.setWindowState
  split <;> exact ⟨rfl, rfl, rfl, rfl, rfl, rfl, rfl, rfl, fun _ => id⟩

theorem State.sweeping_settlingEnds : SettlingEnds s s.sweeping :=
  SettlingEnds.after (State.setWindowState_settlingEnds _ _)
    ⟨rfl, rfl, rfl, rfl, rfl, rfl, rfl, rfl, fun _ => id⟩

theorem State.sweptNothing_settlingEnds : SettlingEnds s s.sweptNothing :=
  SettlingEnds.after (State.setWindowState_settlingEnds _ _) <|
    SettlingEnds.after (v := s.sweeping) ⟨rfl, rfl, rfl, rfl, rfl, rfl, rfl, rfl, fun _ => id⟩
      s.sweeping_settlingEnds

theorem State.conclude_settlingEnds : SettlingEnds s s.conclude := by
  have hpending := (s.conclude_moves (c := .classify)).kept.pending fun d hd => by cases hd
  have howed := s.conclude_owed
  rw [State.conclude_frame] at hpending howed ⊢
  exact ⟨rfl, rfl, rfl, rfl, rfl, rfl, rfl, howed, hpending⟩

theorem State.enterSweeping_settlingEnds : SettlingEnds s s.enterSweeping := by
  cases hset : s.closeSet with
  | cons c rest =>
    rw [s.enterSweeping_cons hset]
    exact SettlingEnds.after (State.runJob_settlingEnds _ _) s.sweeping_settlingEnds
  | nil =>
    rw [s.enterSweeping_nil hset]
    exact SettlingEnds.after (State.conclude_settlingEnds _) s.sweptNothing_settlingEnds

theorem State.leaveSettlingIfDone_settlingEnds : SettlingEnds s s.leaveSettlingIfDone := by
  unfold State.leaveSettlingIfDone
  split
  · exact s.enterSweeping_settlingEnds
  · exact SettlingEnds.refl s

/-! ### The classifier (R57, R58) -/

/-- R58: the classification of a record at the classify position. -/
def State.judgement (r : ChangeRecord) : Classification :=
  classification r ((s.mapEntry r.index).owner.map s.circuit) s.window.state

/-- R57, R58: the record at the classify position judged, its owner acted on, and the position moved past it. -/
def State.classified (r : ChangeRecord) (rest : List ChangeRecord) : State :=
  { s.judgeOwner (s.judgement r) (s.mapEntry r.index).owner with
    journal := { s.journal with
      judged := s.journal.judged ++ [⟨r, s.judgement r, (s.mapEntry r.index).owner⟩], waiting := rest } }

/-- From `u` to `t` only the Circuit Store and the Report Unit change. -/
def StoreReportOnly (u t : State) : Prop := ∃ st rp, t = { u with store := st, report := rp }

theorem StoreReportOnly.after {u v t : State} (h' : StoreReportOnly v t) (h : StoreReportOnly u v) :
    StoreReportOnly u t := by
  obtain ⟨st, rp, rfl⟩ := h
  obtain ⟨st', rp', rfl⟩ := h'
  exact ⟨st', rp', rfl⟩

theorem State.raise_storeReport (c : Cause) : StoreReportOnly s (s.raise c) := ⟨_, _, s.raise_frame c⟩

theorem State.setCircuitState_storeReport (c : Nat) (st : CircuitState) :
    StoreReportOnly s (s.setCircuitState c st) := by
  obtain ⟨m, ct, owed, wanted, b, hs⟩ := s.setCircuitState_frame c st
  exact ⟨_, _, hs⟩

theorem State.putCircuit_storeReport (c : Nat) (r : Circuit) : StoreReportOnly s (s.putCircuit c r) := ⟨_, _, rfl⟩

/-- R60, row 3: a LOADING owner becomes suspect. -/
theorem State.judgeDrift_loading (c : Nat) (h : (s.circuit c).state = .loading) :
    s.judgeDrift c = s.putCircuit c { s.circuit c with suspect := true } := by
  simp [State.judgeDrift, h]

/-- R60: a SETTLED or FAULTED owner becomes DRIFTED, and DRIFT is raised. -/
theorem State.judgeDrift_drifts (c : Nat) (h : (s.circuit c).state = .settled ∨ (s.circuit c).state = .faulted) :
    s.judgeDrift c = (s.setCircuitState c .drifted).raise .drift := by
  rcases h with h | h <;> simp [State.judgeDrift, h]

/-- R60: a window circuit with a prior state SETTLED or FAULTED has it become DRIFTED, and DRIFT is raised. -/
theorem State.judgeDrift_demotes (c : Nat) (h : (s.circuit c).state.inWindow = true)
    (hp : (s.circuit c).prior = some .settled ∨ (s.circuit c).prior = some .faulted) :
    s.judgeDrift c = (s.putCircuit c { s.circuit c with prior := some .drifted }).raise .drift := by
  cases hst : (s.circuit c).state with
  | held | pending | confirmed | degraded | broken | silent => simp [State.judgeDrift, hst, hp]
  | empty | loading | settled | drifted | faulted | restoring => rw [hst] at h; cases h

/-- R60: any other owner is left as it is. -/
theorem State.judgeDrift_stays (c : Nat) (hl : (s.circuit c).state ≠ .loading)
    (hd : ¬ ((s.circuit c).state = .settled ∨ (s.circuit c).state = .faulted))
    (hp : ¬ ((s.circuit c).state.inWindow = true
      ∧ ((s.circuit c).prior = some .settled ∨ (s.circuit c).prior = some .faulted))) :
    s.judgeDrift c = s := by
  cases hst : (s.circuit c).state with
  | held | pending | confirmed | degraded | broken | silent =>
    have hprior : ¬ ((s.circuit c).prior = some .settled ∨ (s.circuit c).prior = some .faulted) := fun h =>
      hp ⟨by rw [hst]; rfl, h⟩
    simp [State.judgeDrift, hst, hprior]
  | loading => exact absurd hst hl
  | settled => exact absurd (.inl hst) hd
  | faulted => exact absurd (.inr hst) hd
  | empty | drifted | restoring => simp [State.judgeDrift, hst]

theorem State.judgeDrift_storeReport (c : Nat) : StoreReportOnly s (s.judgeDrift c) := by
  by_cases hl : (s.circuit c).state = .loading
  · rw [s.judgeDrift_loading c hl]
    exact s.putCircuit_storeReport c _
  by_cases hd : (s.circuit c).state = .settled ∨ (s.circuit c).state = .faulted
  · rw [s.judgeDrift_drifts c hd]
    exact StoreReportOnly.after (State.raise_storeReport _ _) (s.setCircuitState_storeReport c _)
  by_cases hp : (s.circuit c).state.inWindow = true
      ∧ ((s.circuit c).prior = some .settled ∨ (s.circuit c).prior = some .faulted)
  · rw [s.judgeDrift_demotes c hp.1 hp.2]
    exact StoreReportOnly.after (State.raise_storeReport _ _) (s.putCircuit_storeReport c _)
  · rw [s.judgeDrift_stays c hl hd hp]
    exact ⟨_, _, rfl⟩

/-- R59 to R62: a classification acts on the Circuit Store and the marks of the Report Unit. -/
theorem State.judgeOwner_storeReport (k : Classification) (owner : Option Nat) :
    StoreReportOnly s (s.judgeOwner k owner) := by
  have hnone : StoreReportOnly s s := ⟨_, _, rfl⟩
  cases owner with
  | none => cases k with
    | fenced => exact s.raise_storeReport .fenceHit
    | declared | undeclared | drift | stray => exact hnone
  | some c => cases k with
    | fenced => exact StoreReportOnly.after (State.raise_storeReport _ _) ⟨_, _, rfl⟩
    | stray => exact hnone
    | declared => exact s.putCircuit_storeReport c _
    | undeclared =>
      show StoreReportOnly s (if (s.circuit c).state.inWindow then s.bumpChanges c else s.joinUndeclared c)
      split
      · exact s.putCircuit_storeReport c _
      · exact StoreReportOnly.after (State.setCircuitState_storeReport _ _ _) (s.putCircuit_storeReport c _)
    | drift => exact s.judgeDrift_storeReport c

variable {s} {r : ChangeRecord} {rest : List ChangeRecord}

theorem State.classified_frame :
    s.classified r rest = { s with
      store := (s.classified r rest).store, report := (s.classified r rest).report
      journal := { s.journal with
        judged := s.journal.judged ++ [⟨r, s.judgement r, (s.mapEntry r.index).owner⟩], waiting := rest } } := by
  obtain ⟨st, rp, h⟩ := s.judgeOwner_storeReport (s.judgement r) (s.mapEntry r.index).owner
  unfold State.classified
  rw [h]

theorem State.classifyNext_eq (h : s.journal.waiting = r :: rest) :
    s.classifyNext = if r.phase = .opened then (s.classified r rest).leaveSettlingIfDone
      else s.classified r rest := by
  have hclassified : s.classified r rest = { s.judgeOwner (s.judgement r) (s.mapEntry r.index).owner with
      journal := { (s.judgeOwner (s.judgement r) (s.mapEntry r.index).owner).journal with
        judged := (s.judgeOwner (s.judgement r) (s.mapEntry r.index).owner).journal.judged
          ++ [⟨r, s.judgement r, (s.mapEntry r.index).owner⟩]
        waiting := rest } } := by
    rw [State.judgeOwner_journal]
    rfl
  unfold State.classifyNext
  rw [h, hclassified]
  rfl

theorem exec_classify (hr : s.inReset = false) : exec .classify s = .next s.classifyNext.endEvent :=
  live_running s State.classifyNext hr

/-- R57, R64: after the classification SETTLING ends or goes on. -/
theorem State.classifyNext_settlingEnds (h : s.journal.waiting = r :: rest) :
    SettlingEnds (s.classified r rest) s.classifyNext := by
  rw [State.classifyNext_eq h]
  split
  · exact State.leaveSettlingIfDone_settlingEnds _
  · exact SettlingEnds.refl _

/-- R64, R110: with the settle timer running, or none, a classification starts no close sweep. -/
theorem State.classifyNext_stays (h : s.journal.waiting = r :: rest)
    (hs : ¬ (r.phase = .opened ∧ s.window.state = .settling ∧ s.window.settle = .expired)) :
    s.classifyNext = s.classified r rest := by
  have hwindow : (s.classified r rest).window = s.window := by rw [State.classified_frame]
  rw [State.classifyNext_eq h]
  split
  · rename_i hphase
    unfold State.leaveSettlingIfDone
    rw [hwindow]
    exact if_neg fun hd => hs ⟨hphase, hd.1, hd.2.1⟩
  · rfl

end Sys2Proof.Machine
end

section
/-! Settles O17, O18, O19 and O20: the rows of R58, and what each classification does to its owner (R59 to R62). -/

namespace Sys2Proof.Machine

variable {s : State} {r : ChangeRecord} {rest : List ChangeRecord} {c : Nat}

/-! ### The rows of R58 -/

/-- R58, row 1. -/
theorem State.judgement_fenced (hf : r.fenced = true) : s.judgement r = .fenced := by
  simp [State.judgement, classification, hf]

/-- R58, row 2. -/
theorem State.judgement_stray (hf : r.fenced = false) (ho : (s.mapEntry r.index).owner = none) :
    s.judgement r = .stray := by
  simp [State.judgement, classification, hf, ho]

/-- R58, rows 3 and 4, and 8 to 10 where the owner's state decides. -/
theorem State.judgement_drift (hf : r.fenced = false) (ho : (s.mapEntry r.index).owner = some c)
    (hst : (s.circuit c).state ∈ [.loading, .restoring, .confirmed, .degraded, .broken, .silent]) :
    s.judgement r = .drift := by
  simp only [List.mem_cons, List.not_mem_nil, or_false] at hst
  rcases hst with h | h | h | h | h | h <;> simp [State.judgement, classification, hf, ho, h]

/-- R58, rows 5 and 6: a declared circuit, and one that joined undeclared. -/
theorem State.judgement_window (hf : r.fenced = false) (ho : (s.mapEntry r.index).owner = some c)
    (hd : duringWindow r.phase s.window.state = true)
    (hst : (s.circuit c).state = .held ∨ (s.circuit c).state = .pending) :
    s.judgement r = if (s.circuit c).undeclared then .undeclared else .declared := by
  rcases hst with h | h <;> simp [State.judgement, classification, hf, ho, hd, h]

/-- R58, row 7. -/
theorem State.judgement_outside (hf : r.fenced = false) (ho : (s.mapEntry r.index).owner = some c)
    (hd : duringWindow r.phase s.window.state = true)
    (hst : (s.circuit c).state = .settled ∨ (s.circuit c).state = .drifted ∨ (s.circuit c).state = .faulted) :
    s.judgement r = .undeclared := by
  rcases hst with h | h | h <;> simp [State.judgement, classification, hf, ho, hd, h]

/-- R58, rows 8 to 10: out of the window, or of another phase. -/
theorem State.judgement_notDuring (hf : r.fenced = false) (ho : (s.mapEntry r.index).owner = some c)
    (hd : duringWindow r.phase s.window.state = false) : s.judgement r = .drift := by
  simp [State.judgement, classification, hf, ho, hd]

theorem duringWindow_iff (phase : Phase) (w : WindowState) :
    duringWindow phase w = true ↔ phase = .opened ∧ (w = .opened ∨ w = .settling) := decide_eq_true_iff

/-- R57: a classification moves the position past the record, and leaves the other blocks' items as they were. -/
theorem State.classifyNext_frame (h : s.journal.waiting = r :: rest) :
    s.classifyNext.journal = { s.journal with
        judged := s.journal.judged ++ [⟨r, s.judgement r, (s.mapEntry r.index).owner⟩], waiting := rest }
      ∧ s.classifyNext.pass = s.pass ∧ s.classifyNext.directive = s.directive ∧ s.classifyNext.layout = s.layout
      ∧ s.classifyNext.trace.arrivals = s.trace.arrivals ∧ s.classifyNext.window.workSet = s.window.workSet := by
  have hends := State.classifyNext_settlingEnds h
  have hframe := State.classified_frame (s := s) (r := r) (rest := rest)
  generalize s.classified r rest = v at hends hframe
  have hv : v.journal = { s.journal with
        judged := s.journal.judged ++ [⟨r, s.judgement r, (s.mapEntry r.index).owner⟩], waiting := rest }
      ∧ v.pass = s.pass ∧ v.directive = s.directive ∧ v.layout = s.layout ∧ v.trace = s.trace
      ∧ v.window = s.window := by
    rw [hframe]
    exact ⟨rfl, rfl, rfl, rfl, rfl, rfl⟩
  obtain ⟨hjournal, hpass, hdirective, hlayout, htrace, hwindow⟩ := hv
  exact ⟨hends.journal.trans hjournal, hends.pass.trans hpass, hends.directive.trans hdirective,
    hends.layout.trans hlayout, hends.arrivals.trans (congrArg Trace.arrivals htrace),
    hends.workSet.trans (congrArg Window.workSet hwindow)⟩

theorem State.classifyNext_owner (i : Nat) : (s.classifyNext.mapEntry i).owner = (s.mapEntry i).owner :=
  (s.classifyNext_moves (c := .classify) rfl).kept.owners (by rintro (h | h | h | h) <;> cases h) i

/-- Settles O17: the rows of R58, and the frame of a classification. -/
theorem recordClassifiedByRow : Obligations.RecordClassifiedByRow := by
  unfold Obligations.RecordClassifiedByRow
  intro s r rest hreset hwaiting
  obtain ⟨hjournal, hpass, hdirective, hlayout, harrivals, -⟩ := State.classifyNext_frame hwaiting
  refine ⟨_, s.judgement r, exec_classify hreset, by rw [hjournal], by rw [hjournal], by rw [hjournal], hpass,
    hdirective, hlayout, harrivals, State.classifyNext_owner, State.judgement_fenced, State.judgement_stray,
    fun c hf ho => ?_⟩
  dsimp only
  rw [← duringWindow_iff]
  refine ⟨fun h => State.judgement_drift hf ho (by rcases h with h | h <;> simp [h]), State.judgement_window hf ho,
    State.judgement_outside hf ho, fun _ h => State.judgement_drift hf ho (by rcases h with h | h | h | h <;> simp [h]),
    fun hd => State.judgement_notDuring hf ho (by simpa using hd)⟩

/-! ### Counted writes (R59, R61) -/

/-- What a classification has done to the Circuit Store and the owed reports stays, also where SETTLING ends with it. -/
theorem State.classifyNext_judged (h : s.journal.waiting = r :: rest) {k : Classification}
    (hk : s.judgement r = k) {owner : Option Nat} (ho : (s.mapEntry r.index).owner = owner) :
    s.classifyNext.store = (s.judgeOwner k owner).store
      ∧ s.classifyNext.report.owed = (s.judgeOwner k owner).report.owed
      ∧ ∀ n, (s.judgeOwner k owner).report.pending.getLsbD n = true →
          s.classifyNext.report.pending.getLsbD n = true := by
  subst hk ho
  have hends := State.classifyNext_settlingEnds h
  exact ⟨hends.store, hends.owed, hends.pending⟩

/-- R59: the owner of a FENCED record. -/
theorem State.judgeFenced_spec (owner : Option Nat) :
    (s.judgeFenced owner).store = { s.store with circuits := (s.judgeFenced owner).store.circuits }
      ∧ (∀ k, (s.judgeFenced owner).circuit k =
          if owner = some k then { s.circuit k with fenceHits := bump (s.circuit k).fenceHits } else s.circuit k)
      ∧ (∀ k, owner = some k → Table.get false (s.judgeFenced owner).report.owed k = true)
      ∧ (s.report.enables.getLsbD 4 = true → (s.judgeFenced owner).report.pending.getLsbD 4 = true) := by
  unfold State.judgeFenced
  have hstore := fun u : State => u.raise_store .fenceHit
  have howed := fun u : State => (u.raise_marks .fenceHit).1
  cases owner with
  | none =>
    refine ⟨by rw [hstore]; rfl, State.circuit_of_store (hstore s), fun k hk => ?_, State.raise_pends .fenceHit⟩
    cases hk
  | some c =>
    refine ⟨by rw [hstore]; rfl, fun k => (State.circuit_of_store (hstore _) k).trans ?_, fun k hk => ?_,
      fun he => State.raise_pends .fenceHit he⟩
    · by_cases hk : k = c
      · subst hk
        simp [State.forSome]
      · simp [State.forSome, hk, Ne.symm hk]
    · cases hk
      rw [howed]
      simp [State.forSome]

/-- Settles O18: a classification keeps the journal and the window apart from the owner, and a window whose settle timer
runs goes on. -/
theorem classifiedWritesCounted : Obligations.ClassifiedWritesCounted := by
  unfold Obligations.ClassifiedWritesCounted
  intro s r rest hreset hwaiting
  refine ⟨fun hf => ?_, fun c hf hphase ho hst hwindow => ?_⟩
  · obtain ⟨hstore, howed, hpending⟩ := State.classifyNext_judged hwaiting (State.judgement_fenced hf) rfl
    obtain ⟨hcircuits, hcircuit, hsome, hraised⟩ := s.judgeFenced_spec (s.mapEntry r.index).owner
    refine ⟨_, exec_classify hreset, ?_, fun k => ?_, fun k hk => ?_, fun he => hpending 4 (hraised he)⟩
    · rw [hstore]
      exact hcircuits
    · exact (State.circuit_of_store hstore k).trans (hcircuit k)
    · rw [howed]
      exact hsome k hk
  · have hd : duringWindow r.phase s.window.state = true :=
      (duringWindow_iff _ _).mpr ⟨hphase, hwindow.imp id And.left⟩
    have hin : (s.circuit c).state.inWindow = true := by rcases hst with h | h <;> rw [h] <;> rfl
    have hjudge : s.judgeOwner (s.judgement r) (some c) = s.bumpChanges c := by
      rw [State.judgement_window hf ho hd hst]
      split
      · exact if_pos hin
      · rfl
    have hstays : s.classifyNext = s.classified r rest := State.classifyNext_stays hwaiting fun ⟨_, hs, he⟩ => by
      rcases hwindow with h | ⟨_, h⟩
      · rw [h] at hs
        cases hs
      · exact h he
    have hcounted : s.classified r rest = { s.bumpChanges c with journal := (s.classified r rest).journal } := by
      unfold State.classified
      rw [ho, hjudge]
    refine ⟨_, exec_classify hreset, ?_, fun k => ?_⟩
    · rw [hstays, hcounted]
      rfl
    · rw [hstays, hcounted]
      exact State.mapCircuit_circuit s c (fun r => { r with changeCount := bump r.changeCount }) k

/-! ### Drift (R60) -/

/-- R16, R171: ASSURED follows a circuit that takes another state. -/
theorem State.setCircuitState_assured (st : CircuitState) (h : (s.circuit c).state ≠ st) :
    (s.setCircuitState c st).report.assured = (s.setCircuitState c st).assuredCondition := by
  unfold State.setCircuitState
  dsimp only
  rw [if_neg h]
  rfl

/-- R13: SETTLED, FAULTED and DRIFTED owners are fenced alike, so a drift moves no flag. -/
theorem State.setCircuitState_drifted_mapEntry (hfences : s.fencesAgree)
    (hst : (s.circuit c).state = .settled ∨ (s.circuit c).state = .faulted) (i : Nat) :
    (s.setCircuitState c .drifted).mapEntry i = s.mapEntry i := by
  have hrule : (s.putCircuit c { s.circuit c with state := .drifted }).fenceRule = s.fenceRule := by
    funext o
    cases o with
    | none => rfl
    | some k =>
      simp only [State.fenceRule, Option.elim_some, State.putCircuit_circuit, State.putCircuit_store]
      by_cases hk : k = c
      · subst hk
        rcases hst with h | h <;> simp [h, fences]
      · simp [hk]
  rw [State.setCircuitState_mapEntry, hrule, ← hfences i]
  split <;> rfl

/-- R16, R60: a SETTLED or FAULTED circuit becomes DRIFTED, and DRIFT is raised. -/
theorem State.drifts_spec (hfences : s.fencesAgree)
    (hst : (s.circuit c).state = .settled ∨ (s.circuit c).state = .faulted) :
    let t := (s.setCircuitState c .drifted).raise .drift
    (∀ k, t.circuit k = if k = c then { s.circuit c with state := .drifted } else s.circuit k)
    ∧ (∀ i, t.mapEntry i = s.mapEntry i)
    ∧ Table.get false t.report.owed c = true
    ∧ (∀ x, t.count x = if x = .drifted then s.count x + 1
        else if x = (s.circuit c).state then s.count x - 1 else s.count x)
    ∧ t.report.wanted = true
    ∧ t.report.assured = t.assuredCondition
    ∧ t.report.pending = (s.raise .drift).report.pending := by
  have hne : (s.circuit c).state ≠ .drifted := by rcases hst with h | h <;> rw [h] <;> decide
  obtain ⟨m, ct, b, hs, -, -⟩ := s.setCircuitState_change c .drifted hne
  have hstore := State.raise_store (s.setCircuitState c .drifted) .drift
  obtain ⟨howed, -, hassured⟩ := State.raise_marks (s.setCircuitState c .drifted) .drift
  have hwindow : ((s.setCircuitState c .drifted).raise .drift).window = (s.setCircuitState c .drifted).window := by
    rw [State.raise_frame]
  refine ⟨fun k => ?_, fun i => ?_, ?_, fun x => ?_, State.raise_wanted _ (by rw [hs]), ?_,
    State.raise_pending_congr _ (by rw [hs]) (by rw [hs])⟩
  · exact (State.circuit_of_store hstore k).trans (s.setCircuitState_circuit c _ k)
  · exact (State.mapEntry_of_store hstore i).trans (State.setCircuitState_drifted_mapEntry hfences hst i)
  · rw [howed]
    exact s.setCircuitState_owes c _ hne
  · refine (State.count_of_store hstore x).trans ((s.setCircuitState_count c _ x hne).trans ?_)
    by_cases hx : x = .drifted <;> simp [hx]
  · rw [hassured, State.setCircuitState_assured _ hne]
    exact (State.assuredCondition_congr hstore hwindow).symm

/-- R60: an owner neither SETTLED nor FAULTED becomes suspect, has its prior state become DRIFTED, or stays. -/
theorem State.judgeDrift_undrifted (s : State)
    (hd : ¬ ((s.circuit c).state = .settled ∨ (s.circuit c).state = .faulted)) :
    let t := s.judgeDrift c
    let demoted := (s.circuit c).state.inWindow = true
      ∧ ((s.circuit c).prior = some .settled ∨ (s.circuit c).prior = some .faulted)
    (∀ k, k ≠ c → t.circuit k = s.circuit k) ∧ (∀ i, t.mapEntry i = s.mapEntry i)
    ∧ (∀ x, t.count x = s.count x)
    ∧ ((s.circuit c).state = .loading → t.circuit c = { s.circuit c with suspect := true })
    ∧ (demoted → t.circuit c = { s.circuit c with prior := some .drifted }
        ∧ t.report.pending = (s.raise .drift).report.pending)
    ∧ ((s.circuit c).state ≠ .loading → ¬ demoted → t.circuit c = s.circuit c)
    ∧ (¬ demoted → t.report = s.report) := by
  dsimp only
  by_cases hl : (s.circuit c).state = .loading
  · have hin : ¬ (s.circuit c).state.inWindow = true := by simp [hl, CircuitState.inWindow]
    rw [s.judgeDrift_loading c hl]
    exact ⟨fun k hk => by simp [hk], fun _ => rfl, fun _ => rfl, fun _ => by simp, fun h => absurd h.1 hin,
      fun h => absurd hl h, fun _ => rfl⟩
  by_cases hp : (s.circuit c).state.inWindow = true
      ∧ ((s.circuit c).prior = some .settled ∨ (s.circuit c).prior = some .faulted)
  · have hstore := (s.putCircuit c { s.circuit c with prior := some .drifted }).raise_store .drift
    rw [s.judgeDrift_demotes c hp.1 hp.2]
    exact ⟨fun k hk => (State.circuit_of_store hstore k).trans (by simp [hk]),
      fun i => (State.mapEntry_of_store hstore i).trans rfl, fun x => (State.count_of_store hstore x).trans rfl,
      fun h => absurd h hl,
      fun _ => ⟨(State.circuit_of_store hstore c).trans (by simp), State.raise_pending_congr .drift rfl rfl⟩,
      fun _ h => absurd hp h, fun h => absurd hp h⟩
  · rw [s.judgeDrift_stays c hl hd hp]
    exact ⟨fun _ _ => rfl, fun _ => rfl, fun _ => rfl, fun h => absurd h hl, fun h => absurd h hp, fun _ _ => rfl,
      fun _ => rfl⟩

/-- Settles O19: the four effects of R60, by the owner's state. -/
theorem driftRecordJudged : Obligations.DriftRecordJudged := by
  unfold Obligations.DriftRecordJudged
  intro s r rest c hreset hfences hwaiting hf ho hnot
  dsimp only
  have hk : s.judgement r = .drift :=
    State.judgement_notDuring hf ho (Bool.eq_false_iff.mpr fun h => hnot ((duringWindow_iff _ _).mp h))
  have hstays : s.classifyNext = s.classified r rest :=
    State.classifyNext_stays hwaiting fun ⟨hphase, hs, _⟩ => hnot ⟨hphase, .inr hs⟩
  have hjudged : s.classified r rest = { s.judgeDrift c with journal := (s.classified r rest).journal } := by
    unfold State.classified
    rw [ho, hk]
    rfl
  refine ⟨_, exec_classify hreset, ?_⟩
  rw [hstays, hjudged]
  generalize (s.classified r rest).journal = j
  have hwindow : (s.judgeDrift c).window = s.window := by
    obtain ⟨st, rp, h⟩ := s.judgeDrift_storeReport c
    rw [h]
  refine ⟨?_, ?_⟩
  · obtain ⟨st, rp, h⟩ := s.judgeDrift_storeReport c
    rw [h]
  by_cases hd : (s.circuit c).state = .settled ∨ (s.circuit c).state = .faulted
  · obtain ⟨hcircuit, hmap, howed, hcount, hwanted, hassured, hpending⟩ := State.drifts_spec hfences hd
    rw [s.judgeDrift_drifts c hd] at hwindow ⊢
    generalize (s.setCircuitState c .drifted).raise .drift = u at *
    have hl : (s.circuit c).state ≠ .loading := by rcases hd with h | h <;> rw [h] <;> decide
    refine ⟨fun k hk => (hcircuit k).trans (if_neg hk), hmap, fun h => absurd h hl,
      fun _ => ⟨(hcircuit c).trans (if_pos rfl), howed, hcount, hwanted, ?_⟩, fun h => absurd hd h,
      fun ⟨hin, _⟩ => ?_, fun _ h => absurd hd h, fun _ => hpending, fun h => absurd hd h⟩
    · refine hassured.trans ?_
      simp only [State.assuredCondition, hwindow, Bool.decide_and, Bool.and_assoc]
      rfl
    · rcases hd with h | h <;> rw [h] at hin <;> cases hin
  · obtain ⟨hother, hmap, hcount, hloading, hdemoted, hsame, hreport⟩ := s.judgeDrift_undrifted hd
    exact ⟨hother, hmap, hloading, fun h => absurd h hd, fun _ => hcount, fun h => (hdemoted h).1,
      fun hl _ hp => hsame hl hp, fun h => (hdemoted (h.resolve_left hd)).2, fun _ => hreport⟩

/-! ### An unplanned write in the window (R62) -/

/-- R62: a circuit outside the window that joins it undeclared. -/
theorem State.joinUndeclared_spec (o : OutsideState) (hst : (s.circuit c).state = o.toState) (hentries : s.entriesAgree)
    (hw : s.window.state = .opened ∨ s.window.state = .settling) :
    (∀ k, (s.joinUndeclared c).circuit k = if k = c then { s.circuit c with
        prior := some o, undeclared := true, redeclared := false, changeCount := 1
        state := if s.window.state = .opened then .held else .pending } else s.circuit k)
      ∧ (∀ i, (s.joinUndeclared c).mapEntry i = if i ∈ (s.circuit c).entries then
          { owner := some c, fenced := decide (s.window.state = .settling) } else s.mapEntry i)
      ∧ Table.get false (s.joinUndeclared c).report.owed c = true := by
  have hprior : (s.circuit c).state.outside = some o := by rw [hst, OutsideState.outside_toState]
  have hjoined : s.joinUndeclared c = State.setCircuitState (s.mapCircuit c fun r =>
      { r with prior := r.state.outside, undeclared := true, redeclared := false, changeCount := 1 }) c
      (if s.window.state = .opened then .held else .pending) := rfl
  have hnew : (if s.window.state = .opened then CircuitState.held else .pending) ≠ o.toState := by
    cases o <;> split <;> decide
  have hfence : fences s.store.mode (if s.window.state = .opened then .held else .pending)
      = decide (s.window.state = .settling) := by
    rcases hw with h | h <;> simp [h, fences]
  generalize (if s.window.state = .opened then CircuitState.held else .pending) = new at hjoined hnew hfence ⊢
  have hne : ((s.mapCircuit c fun r => { r with
      prior := r.state.outside, undeclared := true, redeclared := false, changeCount := 1 }).circuit c).state
      ≠ new := by
    simpa [hst] using hnew.symm
  rw [hjoined]
  refine ⟨fun k => ?_, fun i => ?_, State.setCircuitState_owes _ c new hne⟩
  · by_cases hk : k = c
    · subst hk
      simp [hprior]
    · simp [hk]
  · by_cases hi : i ∈ (s.circuit c).entries
    · have howner : (s.mapEntry i).owner = some c := (hentries i c).mpr hi
      rw [State.setCircuitState_mapEntry, if_pos ⟨hne, by simpa using hi⟩, if_pos hi]
      simp [State.mapCircuit, howner, State.fenceRule, hfence]
    · rw [State.setCircuitState_mapEntry, if_neg (by simp [hi]), if_neg hi]
      rfl

/-- Settles O20: row 7 of R58 and the join of R62. -/
theorem undeclaredWriteJoinsWindow : Obligations.UndeclaredWriteJoinsWindow := by
  unfold Obligations.UndeclaredWriteJoinsWindow
  intro s r rest c o hreset hentries hwaiting hf hphase ho hst hw
  have hd : duringWindow r.phase s.window.state = true := (duringWindow_iff _ _).mpr ⟨hphase, hw⟩
  have hk : s.judgement r = .undeclared := State.judgement_outside hf ho hd (by rw [hst]; cases o <;> decide)
  have hin : ¬ (s.circuit c).state.inWindow = true := by rw [hst]; cases o <;> decide
  have hjudge : s.judgeOwner .undeclared (some c) = s.joinUndeclared c := if_neg hin
  obtain ⟨hstore, howed, -⟩ := State.classifyNext_judged hwaiting hk ho
  rw [hjudge] at hstore howed
  obtain ⟨hcircuit, hmap, howes⟩ := State.joinUndeclared_spec o hst hentries hw
  have hcircuit' := fun k => (State.circuit_of_store hstore k).trans (hcircuit k)
  have hmap' := fun i => (State.mapEntry_of_store hstore i).trans (hmap i)
  obtain ⟨-, -, -, -, -, hwork⟩ := State.classifyNext_frame hwaiting
  exact ⟨_, exec_classify hreset, (hcircuit' c).trans (if_pos rfl), fun k hk => (hcircuit' k).trans (if_neg hk),
    fun i hi => (hmap' i).trans (if_pos hi), fun i hi => (hmap' i).trans (if_neg hi), by rw [howed]; exact howes,
    hwork⟩

end Sys2Proof.Machine
end

section
/-! Settles O29: the end of SETTLING, by the settle expiry or by the classification that empties the open backlog. -/

namespace Sys2Proof.Machine

variable {s v : State}

/-- R120: with no access of the engine in progress, a job that starts at a circuit requests its first access, or holds
it. -/
theorem State.runJob_firstAccess (hp : ∀ g, v.arbiter.port = some g → g.who ≠ .sweep) (j : Job) (k : Nat)
    (word : Option Word) (hj : State.sweepAccess { v with sweep := { v.sweep with job := j } }
      = some (v.connAddr ((v.circuit k).entries.getD 0 0), word)) :
    v.firstAccessMade (v.runJob j) k word := by
  intro ha
  have hentries : ((v.runJob j).circuit k).entries = (v.circuit k).entries := by
    rw [State.runJob_frame]
    rfl
  dsimp only
  rw [hentries, v.runJob_ready j _ word hj (State.sweepOutstanding_eq_false _ ha hp), State.bufferHolds_eq]
  exact ⟨rfl, rfl⟩

/-- R120: where the first access of a job goes rests on the layout, the posted-write buffer and the engine's request. -/
theorem State.firstAccessMade_congr {t : State} {k : Nat} {word : Option Word} (ha : v.arbiter.sweep = s.arbiter.sweep)
    (hl : v.layout = s.layout) (hp : v.pass = s.pass) (h : v.firstAccessMade t k word) :
    s.firstAccessMade t k word := by
  have hconn : v.connAddr = s.connAddr := by
    funext i
    simp only [State.connAddr, hl]
  unfold State.firstAccessMade at h ⊢
  rw [ha, hconn, hp] at h
  exact h

/-- R111, R120, R122: with a circuit in its set the close sweep starts at the first. -/
theorem State.enterSweeping_starts {c : Nat} {rest : List Nat} (hw : v.window.state = .settling)
    (hp : ∀ g, v.arbiter.port = some g → g.who ≠ .sweep) (hset : v.closeSet = c :: rest) :
    v.enterSweeping = { v with
        window := { v.window with state := .sweeping, settle := .stopped }
        sweep := { v.sweep with job := .closeSweep (c :: rest) c 1 [], held := v.enterSweeping.sweep.held }
        arbiter := { v.arbiter with sweep := v.enterSweeping.arbiter.sweep }
        report := { v.report with windowOwed := true, wanted := true, assured := false } }
      ∧ v.firstAccessMade v.enterSweeping c none := by
  have hreport := v.sweeping_report (by rw [hw]; decide)
  have hframe := v.sweeping_frame
  rw [hreport] at hframe
  have hport : ∀ g, v.sweeping.arbiter.port = some g → g.who ≠ .sweep := by
    rw [hframe]
    exact hp
  rw [v.enterSweeping_cons hset]
  have hfirst := State.runJob_firstAccess hport (.closeSweep (c :: rest) c 1 []) c none rfl
  refine ⟨?_, State.firstAccessMade_congr (by rw [hframe]) (by rw [hframe]) (by rw [hframe]) hfirst⟩
  rw [State.runJob_frame, hframe]

/-- R125, R136, R143: with no circuit in its set the close sweep has ended, and the window has concluded. -/
theorem State.enterSweeping_concludes (hset : v.closeSet = []) :
    v.enterSweeping.window = { v.window with state := .concluded, settle := .stopped }
      ∧ v.enterSweeping.report.windowOwed = true
      ∧ v.enterSweeping.verdict.limit = ⟨false, 1000 * v.window.verifyLimit⟩
      ∧ v.enterSweeping.verdict.steady.running = false ∧ v.enterSweeping.sweep.job = .none := by
  have hverifying : v.sweptNothing.window.state = .verifying := by rw [State.sweptNothing_frame]
  have howed := v.sweptNothing.conclude_windowOwed (by rw [hverifying]; decide)
  rw [v.enterSweeping_nil hset]
  rw [State.conclude_frame, v.sweptNothing_frame] at howed ⊢
  exact ⟨rfl, howed, rfl, rfl, rfl⟩

/-- R109, R110: the settle timer of a SETTLING window expires. -/
theorem exec_settleExpiry {n : Nat} (hr : s.inReset = false) (hw : s.window.state = .settling)
    (ht : s.window.settle = .running n) :
    exec .settleExpiry s = .next
      (State.leaveSettlingIfDone { s with window := { s.window with settle := .expired } }).endEvent := by
  refine (live_running s State.expireSettle hr).trans ?_
  simp [State.expireSettle, hw, ht]

/-- R64, R110: SETTLING ends with the timer expired and no open backlog left. -/
theorem State.leaveSettlingIfDone_done (hw : v.window.state = .settling) (ht : v.window.settle = .expired)
    (hb : v.journal.openBacklog = 0) : v.leaveSettlingIfDone = v.enterSweeping := if_pos ⟨hw, ht, hb⟩

theorem State.leaveSettlingIfDone_backlog (hb : v.journal.openBacklog ≠ 0) : v.leaveSettlingIfDone = v :=
  if_neg fun h => hb h.2.2

/-- R64: the open backlog is empty when no waiting record is of phase OPEN. -/
theorem Journal.openBacklog_eq_zero (j : Journal) : j.openBacklog = 0 ↔ ∀ q ∈ j.waiting, q.phase ≠ .opened := by
  simp [Journal.openBacklog]

/-- Settles O29: `enterSweeping_starts` and `enterSweeping_concludes`, after the expiry and after a classification. -/
theorem settleExpiryStartsSweep : Obligations.SettleExpiryStartsSweep := by
  unfold Obligations.SettleExpiryStartsSweep
  refine ⟨fun s n hr hw ht => ?_, fun s r rest hr hw ht hphase hwaiting _ hp => ?_⟩
  · have hexec := exec_settleExpiry hr hw ht
    have hdone := State.leaveSettlingIfDone_done (v := { s with window := { s.window with settle := .expired } }) hw rfl
    refine ⟨fun hb => ?_, fun c rest hb _ hp hset => ?_, fun hb hset => ?_⟩
    · rw [hexec, State.leaveSettlingIfDone_backlog (by exact hb)]
    · rw [hdone hb] at hexec
      obtain ⟨hframe, hfirst⟩ := State.enterSweeping_starts
        (v := { s with window := { s.window with settle := .expired } }) hw hp hset
      exact ⟨_, hexec, hframe, hfirst⟩
    · rw [hdone hb] at hexec
      obtain ⟨hwindow, howed, hlimit, hsteady, hjob⟩ := State.enterSweeping_concludes
        (v := { s with window := { s.window with settle := .expired } }) hset
      have hends := State.enterSweeping_settlingEnds { s with window := { s.window with settle := .expired } }
      exact ⟨_, hexec, hwindow, howed, hlimit, hsteady, hends.store, hends.journal, hends.pass, hjob⟩
  · have hnext : s.classifyNext = (s.classified r rest).leaveSettlingIfDone := by
      rw [State.classifyNext_eq hwaiting, if_pos hphase]
    obtain ⟨hjournal, -⟩ := State.classifyNext_frame hwaiting
    have hends := State.leaveSettlingIfDone_settlingEnds (s.classified r rest)
    refine ⟨_, exec_classify hr, by rw [hjournal], ?_⟩
    rw [hnext]
    have hframe := State.classified_frame (s := s) (r := r) (rest := rest)
    generalize s.classified r rest = v at hends hframe ⊢
    have hv : v.window = s.window ∧ v.sweep = s.sweep ∧ v.arbiter = s.arbiter ∧ v.layout = s.layout
        ∧ v.pass = s.pass ∧ v.journal.waiting = rest := by
      rw [hframe]
      exact ⟨rfl, rfl, rfl, rfl, rfl, rfl⟩
    obtain ⟨hwindow, hsweep, harbiter, hlayout, hpass, hrest⟩ := hv
    have hbacklog := v.journal.openBacklog_eq_zero
    rw [hrest] at hbacklog
    refine ⟨fun ⟨q, hq, hopen⟩ => ?_, fun hnone => ?_⟩
    · rw [State.leaveSettlingIfDone_backlog fun h => hbacklog.mp h q hq hopen]
      exact ⟨hwindow, hsweep⟩
    · rw [State.leaveSettlingIfDone_done (hwindow ▸ hw) (hwindow ▸ ht) (hbacklog.mpr hnone)] at hends ⊢
      have hset : (if s.window.overrun then v.enterSweeping.loadedCircuits else v.enterSweeping.windowCircuits)
          = v.closeSet := by
        simp only [State.closeSet, State.loadedCircuits, State.windowCircuits, State.circuitsWhere,
          State.circuit_of_store hends.store, hwindow]
      dsimp only
      rw [hset]
      cases hcs : v.closeSet with
      | cons c more =>
        obtain ⟨hstarts, hfirst⟩ := State.enterSweeping_starts (hwindow ▸ hw) (by rw [harbiter]; exact hp) hcs
        have hsweeping : v.enterSweeping.window = { s.window with state := .sweeping, settle := .stopped }
            ∧ v.enterSweeping.sweep = { s.sweep with
                job := .closeSweep (c :: more) c 1 [], held := v.enterSweeping.sweep.held }
            ∧ v.enterSweeping.report.windowOwed = true := by
          rw [← hwindow, ← hsweep]
          generalize v.enterSweeping = t at hstarts
          rw [hstarts]
          exact ⟨rfl, rfl, rfl⟩
        obtain ⟨hentered, hjob, howed⟩ := hsweeping
        refine ⟨howed, fun k rest' h => ?_, fun h => by cases h⟩
        cases h
        exact ⟨hentered, hjob, State.firstAccessMade_congr (by rw [harbiter]) hlayout hpass hfirst⟩
      | nil =>
        obtain ⟨hconcluded, howed, hlimit, -, hjob⟩ := State.enterSweeping_concludes hcs
        rw [hwindow] at hconcluded hlimit
        refine ⟨howed, fun c more h => ?_, fun _ => ⟨hconcluded, hjob, hlimit⟩⟩
        cases h

end Sys2Proof.Machine
end

section
/-! A drift sweep that starts, or has ended at once, where no other job waits (R55, R119, R127). -/

namespace Sys2Proof.Machine

variable {v : State}

/-- R119: with the engine idle and nothing waiting, no job starts. -/
theorem State.startNextJob_nothing (hj : v.sweep.job = .none) (hc : v.sweep.captureRequest = none)
    (hd : v.sweep.driftRequest = false) (hl : v.sweep.restoreList = []) : v.startNextJob = v := by
  rw [State.startNextJob_restore hj hc hd, State.startRestore_nil hl]

/-- R119, R126: with the engine idle and no capture waiting, a requested drift sweep starts at the first SETTLED
circuit. -/
theorem State.startNextJob_driftAt {n : Nat} (hj : v.sweep.job = .none) (hc : v.sweep.captureRequest = none)
    (hd : v.sweep.driftRequest = true) (hn : v.nextSettled 0 = some n) :
    v.startNextJob = v.driftBegun.runJob (.driftSweep n 1) := by
  rw [State.startNextJob_drift hj hc hd, State.startDriftSweep_eq, hn, Option.elim_some]

/-- R55, R56, R127: with no SETTLED circuit and no restore listed, a drift sweep owed and requested has ended at
once. -/
theorem State.startNextJob_driftOver (hj : v.sweep.job = .none) (hc : v.sweep.captureRequest = none)
    (hd : v.sweep.driftRequest = true) (hl : v.sweep.restoreList = []) (ho : v.journal.demand = .owed)
    (hn : v.nextSettled 0 = none) :
    v.startNextJob = { v with
      journal := { v.journal with demand := .none, overrun := none }
      sweep := { v.sweep with driftRequest := false }
      report := { v.report with wanted := v.report.wanted || v.journal.overrun.isSome } } := by
  have hended : v.driftBegun.driftSweepEnded = (v.driftBegun.setDemand .none).clearOverrun := by
    simp [State.driftSweepEnded, State.driftBegun, ho]
  have hlist : (v.driftBegun.setDemand .none).clearOverrun.sweep.restoreList = [] := by
    rw [State.clearOverrun_frame]
    exact hl
  rw [State.startNextJob_drift hj hc hd, State.startDriftSweep_eq, hn, Option.elim_none, hended,
    State.startRestore_nil hlist, State.clearOverrun_frame]
  rfl

/-- R55: an owed drift sweep that is not due is not requested. -/
theorem State.requestDriftSweep_notDue (h : v.driftDue = false) : v.requestDriftSweep = v := by
  simp [State.requestDriftSweep, h]

/-- R55: the drift sweep request is yes. -/
def State.driftRequested (v : State) : State := { v with sweep := { v.sweep with driftRequest := true } }

/-- R55: one that is due is requested, and the first waiting job starts if none runs. -/
theorem State.requestDriftSweep_due (h : v.driftDue = true) :
    v.requestDriftSweep = v.driftRequested.startNextJob := by
  simp [State.requestDriftSweep, State.markDriftDue, State.driftRequested, h]

theorem State.driftDue_iff :
    v.driftDue = true ↔ v.journal.demand = .owed ∧ v.window.state = .quiet
      ∧ v.journal.judged.length + v.journal.waiting.length < 192 := decide_eq_true_iff

end Sys2Proof.Machine
end

section
/-! Settles O49: the words of a report record, its end and its failure (R50, R55, R166). -/

namespace Sys2Proof.Machine

variable (s : State) {r : Request} {item : RecordItem} {base : Nat} {done : Nat × Word} {left : List (Nat × Word)}
  {overtaken : Bool}

/-! ### A word completes (R166) -/

theorem exec_reportWordComplete (h : s.inProgress .report r)
    (hw : s.report.writer = .writing item base left overtaken) :
    exec .reportWordComplete s = .next (s.freePort.endRecordWord item base left overtaken).endEvent := by
  obtain ⟨hreset, n, hport⟩ := h
  have hof : s.portOf .report = some r := by simp [State.portOf, hport]
  refine (live_running s State.completeReportWord hreset).trans ?_
  simp [State.completeReportWord, hof, hw]

/-- R50, R166: the last word of a record has completed, and a CHANGE record is released. -/
def State.recordEnded (item : RecordItem) : State :=
  { s with
    arbiter := { s.arbiter with port := none }
    journal := { s.journal with judged := if item = .change then s.journal.judged.tail else s.journal.judged }
    report := { s.report with writer := .idle, producer := s.report.producer + 1, wanted := true } }

/-- R55, R166: after the release of a CHANGE record a drift sweep may be due. -/
theorem State.endRecordWord_last (done : Nat × Word) :
    s.freePort.endRecordWord item base [done] false =
      if item = .change then (s.recordEnded item).requestDriftSweep else s.recordEnded item := by
  cases item <;> rfl

theorem State.recordEnded_driftDue :
    ((s.recordEnded item).driftDue = true ∧ item = .change) ↔
      item = .change ∧ s.journal.demand = .owed ∧ s.window.state = .quiet
        ∧ s.journal.judged.tail.length + s.journal.waiting.length < 192 := by
  rw [State.driftDue_iff]
  constructor
  · rintro ⟨h, rfl⟩
    exact ⟨rfl, h⟩
  · rintro ⟨rfl, h⟩
    exact ⟨h, rfl⟩

/-! ### A second failure (R166) -/

/-- R45, R46: what the second failure of a Report Unit access has done before the unit is told. -/
def State.reportFaulted (r : Request) : State := (s.freePort.writeFault r.addr .report 0).raise .busFault

theorem State.reportFaulted_frame (r : Request) :
    s.reportFaulted r = { s with
      arbiter := { s.arbiter with port := none, fault := ⟨r.addr, .report, 0⟩ }
      report := (s.wantSummary.raise .busFault).report } := by
  have hreport : (s.reportFaulted r).report = (s.wantSummary.raise .busFault).report :=
    State.raise_report_congr _ _ rfl
  rw [← hreport]
  unfold State.reportFaulted
  rw [State.raise_frame]
  rfl

theorem exec_recordFails {i : Instr} (hi : failsAccess i) (h : s.inProgress .report r) (hretry : r.retry = true)
    (hstale : r.stale = false) (hw : s.report.writer = .writing item base left overtaken) :
    exec i s = .next ((if overtaken then s.reportFaulted r
      else (s.reportFaulted r).owesAgain item).setWriter (.holdOff 1)).endEvent := by
  have hfail : s.freePort.failInternal .report r = (s.reportFaulted r).failReport := by
    simp [State.failInternal, hstale, State.reportFaulted, Requester.faultKind]
  have hwriter : (s.reportFaulted r).report.writer = .writing item base left overtaken := by
    unfold State.reportFaulted
    rw [State.raise_frame]
    exact hw
  rw [exec_secondFailure hi h (by decide) hretry, hfail]
  simp [State.failReport, hwriter]

/-- R166: a record kept owed: its mark is set, a CIRCUIT report's fence hits are added back, and nothing else
changes. -/
theorem State.owesAgain_frame (item : RecordItem) :
    s.owesAgain item = { s with
      store := { s.store with circuits := (s.owesAgain item).store.circuits }
      report := { s.report with
        windowOwed := s.report.windowOwed || decide (item = .window), owed := (s.owesAgain item).report.owed } } := by
  cases item with
  | window => simp [State.owesAgain, State.oweWindow]
  | circuit k hits => simp [State.owesAgain, State.oweCircuit, State.mapCircuit, State.putCircuit]
  | change => simp [State.owesAgain]

theorem State.owesAgain_circuit (k hits : Nat) :
    (∀ c, (s.owesAgain (.circuit k hits)).circuit c =
        if c = k then { s.circuit k with fenceHits := min 255 ((s.circuit k).fenceHits + hits) } else s.circuit c)
      ∧ ∀ c, Table.get false (s.owesAgain (.circuit k hits)).report.owed c
          = (Table.get false s.report.owed c || decide (c = k)) := by
  refine ⟨fun c => ?_, fun c => ?_⟩
  · by_cases hc : c = k
    · subst hc
      simp [State.owesAgain, Config.countMax]
    · simp [State.owesAgain, hc]
  · by_cases hc : c = k <;> simp [State.owesAgain, hc]

/-- R166: only a CIRCUIT report touches the Circuit Store and the CIRCUIT marks. -/
theorem State.owesAgain_other (h : ∀ k hits, item ≠ .circuit k hits) :
    (s.owesAgain item).store = s.store ∧ (s.owesAgain item).report.owed = s.report.owed := by
  cases item with
  | window => exact ⟨rfl, rfl⟩
  | circuit k hits => exact absurd rfl (h k hits)
  | change => exact ⟨rfl, rfl⟩

/-! ### O49 -/

/-- R55: the drift sweep that the release of a CHANGE record brings. -/
theorem State.endRecordWord_due (done : Nat × Word) (hi : item = .change) (hd : (s.recordEnded item).driftDue = true) :
    s.freePort.endRecordWord item base [done] false = (s.recordEnded item).driftRequested.startNextJob := by
  rw [s.endRecordWord_last done, if_pos hi, State.requestDriftSweep_due hd]

/-- Settles O49: the next word, the end of the record with the drift sweep that may follow, and its failure. -/
theorem reportWordCompletes : Obligations.ReportWordCompletes := by
  unfold Obligations.ReportWordCompletes
  intro s r item base done left overtaken
  refine ⟨fun hprogress hwriter => ?_, fun n hreset hwriter => ?_⟩
  · have hexec := exec_reportWordComplete s hprogress hwriter
    refine ⟨fun n w rest hleft => ?_, fun hleft hovertaken => ?_, fun hleft hovertaken => ?_,
      fun i hi hretry hstale => ?_⟩
    · subst hleft
      exact hexec
    · subst hleft hovertaken
      exact hexec
    · subst hleft hovertaken
      dsimp only
      rw [hexec, ← s.recordEnded_driftDue]
      refine ⟨fun hnot => ?_, fun ⟨hd, hi⟩ hjob => ?_,
        fun ⟨hd, hi⟩ hjob hcapture => ⟨fun n hn hset hfirst hidle => ?_, fun hnone hlist => ?_⟩⟩
      · have hended : s.freePort.endRecordWord item base [done] false = s.recordEnded item := by
          rw [s.endRecordWord_last]
          split
          · rename_i hi
            exact State.requestDriftSweep_notDue (Bool.eq_false_iff.mpr fun h => hnot ⟨h, hi⟩)
          · rfl
        rw [hended]
        rfl
      · rw [s.endRecordWord_due done hi hd, State.startNextJob_busy _ (by exact hjob)]
        rfl
      · have howed := (s.recordEnded_driftDue.mp ⟨hd, hi⟩).2.1
        have hready := (s.recordEnded item).driftRequested.driftBegun.runJob_ready (.driftSweep n 1)
          (s.connAddr ((s.circuit n).entries.getD 0 0)) none rfl
          (State.sweepOutstanding_eq_false _ hidle fun g hg => by cases hg)
        have hstarts := State.startNextJob_driftAt (v := (s.recordEnded item).driftRequested) hjob hcapture rfl
          (State.nextSettled_zero_eq_some.mpr ⟨hn, hset, hfirst⟩)
        rw [s.endRecordWord_due done hi hd, hstarts, hready, State.bufferHolds_eq]
        simp only [State.driftBegun, State.driftRequested, State.recordEnded, howed, if_true]
        rfl
      · have howed := (s.recordEnded_driftDue.mp ⟨hd, hi⟩).2.1
        have hover := State.startNextJob_driftOver (v := (s.recordEnded item).driftRequested) hjob hcapture rfl hlist
          howed (State.nextSettled_zero_eq_none.mpr hnone)
        rw [s.endRecordWord_due done hi hd, hover]
        rfl
    · have hfails := exec_recordFails s hi hprogress hretry hstale hwriter
      refine ⟨_, hfails, ?_⟩
      have hfault := s.reportFaulted_frame r
      obtain ⟨hmarks, hwindowOwed, -⟩ := State.raise_marks s.wantSummary .busFault
      rw [State.wantSummary_report] at hwindowOwed
      cases overtaken with
      | true =>
        rw [if_pos rfl, hfault]
        refine ⟨?_, fun _ _ _ h => (by cases h), fun _ => ⟨rfl, hmarks⟩⟩
        simp [State.setWriter, hwindowOwed]
      | false =>
        rw [if_neg Bool.false_ne_true]
        have hagain := (s.reportFaulted r).owesAgain_frame item
        have hcircuit := (s.reportFaulted r).owesAgain_circuit
        have hother := (s.reportFaulted r).owesAgain_other (item := item)
        have hkept : (s.reportFaulted r).report.owed = s.report.owed ∧ (s.reportFaulted r).store = s.store := by
          rw [hfault]
          exact ⟨hmarks, rfl⟩
        rw [hkept.1, hkept.2] at hother
        simp only [hkept.1, State.circuit_of_store hkept.2] at hcircuit
        refine ⟨?_, fun k hits hk _ => ?_, fun h => hother (h.resolve_right Bool.false_ne_true)⟩
        · generalize (s.reportFaulted r).owesAgain item = u at hagain
          rw [hagain, hfault]
          simp [State.setWriter, hwindowOwed]
        · subst hk
          exact hcircuit k hits
  · refine (live_running s State.endReportHoldOff hreset).trans ?_
    simp [State.endReportHoldOff, hwriter, State.setWriter]

end Sys2Proof.Machine
end

section
/-! Settles O46: the reads of a drift sweep, its end, and its failures (R126, R127). -/

namespace Sys2Proof.Machine

variable (s : State) {r : Request} {c p : Nat}

/-! ### The events -/

theorem exec_driftSweepReadComplete (data : Word) (h : s.inProgress .sweep r) (hstale : r.stale = false)
    (hjob : s.sweep.job = .driftSweep c p) :
    exec (.driftSweepReadComplete data) s = .next (s.freePort.takeDriftWord c p data).endEvent := by
  obtain ⟨hreset, n, hport⟩ := h
  have hof : s.portOf .sweep = some r := by simp [State.portOf, hport]
  refine (live_running s (fun s => s.completeDriftSweepRead data) hreset).trans ?_
  simp [State.completeDriftSweepRead, hof, hjob, hstale]

/-- R46: the state with the failure of the read recorded and BUS_FAULT raised. -/
def State.sweepFaultNoted (r : Request) : State :=
  { s with
    arbiter := { s.arbiter with fault := ⟨r.addr, .sweep, 0⟩ }
    report := (s.wantSummary.raise .busFault).report }

/-- R126: the second failure of a drift sweep read. -/
theorem exec_driftSweepFails {i : Instr} (hi : failsAccess i) (h : s.inProgress .sweep r) (hretry : r.retry = true)
    (hstale : r.stale = false) (hjob : s.sweep.job = .driftSweep c p) :
    exec i s = .next (((s.sweepFaultNoted r).freePort.driftSettled c).driftOn (c + 1)).endEvent := by
  have hreport : (s.sweepFaulted r).report = (s.wantSummary.raise .busFault).report := State.raise_report_congr _ _ rfl
  have hnoted : s.sweepFaulted r = (s.sweepFaultNoted r).freePort := by
    rw [State.sweepFaulted_frame, hreport]
    rfl
  have hfail : s.freePort.failInternal .sweep r = (s.sweepFaulted r).failSweep := by
    simp [State.failInternal, hstale, State.sweepFaulted, Requester.faultKind]
  have hdrift : (s.sweepFaultNoted r).freePort.sweep.job = .driftSweep c p := hjob
  rw [exec_secondFailure hi h (by decide) hretry, hfail, hnoted]
  unfold State.failSweep
  rw [hdrift]

/-! ### The words (R126) -/

variable {s}

theorem State.takeDriftWord_left (data : Word) (h : (s.circuit c).state ≠ .settled) :
    s.takeDriftWord c p data = s.driftOn (c + 1) := if_pos h

theorem State.driftSettled_left (h : (s.circuit c).state ≠ .settled) : s.driftSettled c = s := if_neg h

theorem State.takeDriftWord_differs {base : List Word} {data : Word} (h : (s.circuit c).state = .settled)
    (hb : (s.circuit c).baseline = some base) (hd : base.getD (p - 1) 0 ≠ data) :
    s.takeDriftWord c p data = (s.driftSettled c).driftOn (c + 1) := by
  simp only [State.takeDriftWord, h, hb]
  rw [if_neg (by simp), if_pos (by simpa using hd)]

theorem State.takeDriftWord_equal {base : List Word} {data : Word} (h : (s.circuit c).state = .settled)
    (hb : (s.circuit c).baseline = some base) (hd : base.getD (p - 1) 0 = data) :
    s.takeDriftWord c p data =
      if p < (s.circuit c).entries.length then s.runJob (.driftSweep c (p + 1)) else s.driftOn (c + 1) := by
  simp only [State.takeDriftWord, h, hb]
  rw [if_neg (by simp), if_neg (by simpa using hd)]

/-! ### The next circuit, or the end (R126, R127) -/

/-- R126: the first SETTLED circuit above circuit `c`. -/
theorem State.nextSettled_above {n : Nat} :
    s.nextSettled (c + 1) = some n ↔
      c < n ∧ n < 512 ∧ (s.circuit n).state = .settled
        ∧ ∀ k, c < k → k < n → (s.circuit k).state ≠ .settled := by
  unfold State.nextSettled State.circuitsWhere
  rw [List.find?_filter, List.find?_range_eq_some]
  simp only [Config.circuits, List.mem_range, decide_eq_true_eq, Bool.not_eq_true', decide_eq_false_iff_not]
  constructor
  · rintro ⟨⟨hset, hlow⟩, hn, hfirst⟩
    exact ⟨hlow, hn, hset, fun k hk hkn hs => hfirst k hkn ⟨hs, hk⟩⟩
  · rintro ⟨hlow, hn, hset, hfirst⟩
    exact ⟨⟨hset, hlow⟩, hn, fun k hkn ⟨hs, hk⟩ => hfirst k hk hkn hs⟩

theorem State.nextSettled_above_eq_none :
    s.nextSettled (c + 1) = none ↔ ∀ k, c < k → k < 512 → (s.circuit k).state ≠ .settled := by
  unfold State.nextSettled State.circuitsWhere
  rw [List.find?_filter, List.find?_range_eq_none]
  simp only [Config.circuits, Bool.not_eq_true', decide_eq_true_eq, decide_eq_false_iff_not]
  exact ⟨fun h k hk hkn hs => h k hkn ⟨hs, hk⟩, fun h k hkn ⟨hs, hk⟩ => h k hk hkn hs⟩

/-- R55, R56, R127: the drift sweep told to the journal as ended, the engine's job going on as it was. -/
def State.driftTold (s : State) : State :=
  { s with
    journal :=
      if s.journal.demand = .running then { s.journal with demand := .none, overrun := none }
      else if s.journal.demand = .runningAndOwed then { s.journal with demand := .owed }
      else s.journal
    sweep := { s.sweep with
      driftRequest := s.sweep.driftRequest || decide (s.journal.demand = .runningAndOwed
        ∧ s.window.state = .quiet ∧ s.journal.occupancy < 192) } }

/-- R127: what the end of a drift sweep tells the journal. -/
theorem State.driftSweepEnded_told (s : State) :
    s.driftSweepEnded.journal = s.driftTold.journal ∧ s.driftSweepEnded.sweep = s.driftTold.sweep := by
  cases hd : s.journal.demand with
  | none | owed => simp [State.driftSweepEnded, State.driftTold, hd]
  | running =>
    simp only [State.driftSweepEnded, State.driftTold, hd]
    rw [State.clearOverrun_frame]
    simp [State.setDemand]
  | runningAndOwed =>
    simp only [State.driftSweepEnded, State.driftTold, hd]
    rw [State.markDriftDue_frame]
    simp [State.setDemand, State.driftDue, Config.journalHalf]
    rfl

theorem State.driftOn_next {n : Nat} (h : s.nextSettled (c + 1) = some n) :
    s.driftOn (c + 1) = s.runJob (.driftSweep n 1) := by
  unfold State.driftOn
  rw [h]

theorem State.driftOn_end (h : s.nextSettled (c + 1) = none) :
    s.driftOn (c + 1) = s.endJob.driftSweepEnded.startNextJob := by
  unfold State.driftOn
  rw [h]

/-- R126, R127: from `s` to `t` the drift sweep passes circuit `c`, whose record becomes `last`: it comes to the next
SETTLED circuit, or ends. -/
def State.driftPasses (s t : State) (c : Nat) (last : Circuit) : Prop :=
  (∀ n, c < n → n < 512 → (s.circuit n).state = .settled →
      (∀ k, c < k → k < n → (s.circuit k).state ≠ .settled) →
      (∀ k, t.circuit k = if k = c then last else s.circuit k) ∧ t.journal = s.journal
      ∧ t.sweep = { s.sweep with job := .driftSweep n 1, held := t.sweep.held }
      ∧ s.firstAccessMade t n none)
  ∧ ((∀ k, c < k → k < 512 → (s.circuit k).state ≠ .settled) →
      s.driftTold.waitingJobStarts t c last s.sweep.restoreList)
  ∧ t.window = s.window ∧ t.trace = s.trace ∧ t.pass = s.pass

/-- In `v` the port is free, the record of circuit `c` is `last`, and nothing else that a drift sweep
goes by has changed from `s`. -/
structure DriftRead (s v : State) (c : Nat) (last : Circuit) : Prop where
  freed : PortFreed s v
  journal : v.journal = s.journal
  sweep : v.sweep = s.sweep
  window : v.window = s.window
  trace : v.trace = s.trace
  circuit : ∀ k, v.circuit k = if k = c then last else s.circuit k

/-- R126, R127, R119: after a circuit the drift sweep comes to the next SETTLED one, or ends and the first waiting job
starts. -/
theorem DriftRead.driftOn_passes {v : State} {last : Circuit} (h : DriftRead s v c last) :
    s.driftPasses (v.driftOn (c + 1)) c last := by
  have habove : ∀ k, c < k → v.circuit k = s.circuit k := fun k hk =>
    (h.circuit k).trans (if_neg (Nat.ne_of_gt hk))
  unfold State.driftPasses
  cases hnext : v.nextSettled (c + 1) with
  | some m =>
    obtain ⟨hcm, hm, hset, hfirst⟩ := State.nextSettled_above.mp hnext
    rw [habove m hcm] at hset
    rw [State.driftOn_next hnext]
    have hon := v.runJob_sweepsOn (.driftSweep m 1)
    refine ⟨fun n hcn hn hsettled hbefore => ?_, fun hnone => absurd hset (hnone m hcm hm), hon.window.trans h.window,
      hon.trace.trans h.trace, hon.pass.trans h.freed.pass⟩
    have hmn : m = n := by
      rcases Nat.lt_trichotomy m n with hlt | heq | hgt
      · exact absurd hset (hbefore m hcm hlt)
      · exact heq
      · exact absurd hsettled (habove n hcn ▸ hfirst n hcn hgt)
    subst hmn
    refine ⟨fun k => ?_, ?_, ?_, h.freed.firstAccessMade _ m none rfl⟩
    · rw [State.runJob_frame]
      exact h.circuit k
    · rw [State.runJob_frame]
      exact h.journal
    · rw [State.runJob_frame, ← h.sweep]
  | none =>
    have hnone := State.nextSettled_above_eq_none.mp hnext
    rw [State.driftOn_end hnext]
    have hon := SweepsOn.after (State.startNextJob_sweepsOn _) v.endJob.driftSweepEnded_sweepsOn
    refine ⟨fun n hcn hn hsettled _ => absurd hsettled (habove n hcn ▸ hnone n hcn hn), fun _ => ?_,
      hon.window.trans h.window, hon.trace.trans h.trace, hon.pass.trans h.freed.pass⟩
    obtain ⟨hjournal, hsweep⟩ := v.endJob.driftSweepEnded_told
    have hframe := State.driftSweepEnded_frame (v := v.endJob)
    generalize v.endJob.driftSweepEnded = u at hjournal hsweep hframe ⊢
    have htold : v.endJob.driftTold.journal = s.driftTold.journal
        ∧ v.endJob.driftTold.sweep = { s.driftTold.sweep with job := .none, held := none } := by
      simp only [State.driftTold, State.endJob_journal, State.endJob_window, State.endJob_sweep, h.journal, h.sweep,
        h.window]
      exact ⟨trivial, trivial⟩
    refine State.startNextJob_waitingJobStarts c last s.sweep.restoreList ?_ (hjournal.trans htold.1)
      (hsweep.trans htold.2) fun k => ?_
    · rw [hframe]
      exact ⟨h.freed.port, h.freed.sweep, h.freed.layout, h.freed.pass⟩
    · rw [hframe]
      exact h.circuit k

/-! ### O46 -/

theorem State.freePort_driftRead : DriftRead s s.freePort c (s.circuit c) :=
  ⟨⟨rfl, rfl, rfl, rfl⟩, rfl, rfl, rfl, rfl, fun k => by split <;> simp_all⟩

/-- R126: a word that differs makes a SETTLED circuit DRIFTED. -/
theorem State.driftSettled_driftRead (h : (s.circuit c).state = .settled) :
    DriftRead s (s.freePort.driftSettled c) c { s.circuit c with state := .drifted } := by
  have hdrifts : s.freePort.driftSettled c = (s.freePort.setCircuitState c .drifted).raise .drift := if_pos h
  obtain ⟨m, ct, owed, wanted, b, hs⟩ := s.freePort.setCircuitState_frame c .drifted
  have hcircuit := s.freePort.setCircuitState_circuit c .drifted
  have hfreed := (State.freePort_driftRead (s := s) (c := c)).freed.setCircuitState c .drifted
  rw [hdrifts]
  refine ⟨?_, ?_, ?_, ?_, ?_, fun k => (State.circuit_of_store (State.raise_store _ _) k).trans (hcircuit k)⟩
  all_goals rw [State.raise_frame]
  · exact ⟨hfreed.port, hfreed.sweep, hfreed.layout, hfreed.pass⟩
  all_goals rw [hs]; rfl

/-- R126: the second failure of a drift sweep read does as the completion of a read that leads to the same end. -/
theorem exec_driftSweepFails_as_read {i : Instr} {data : Word} (hi : failsAccess i) (h : s.inProgress .sweep r)
    (hretry : r.retry = true) (hstale : r.stale = false) (hjob : s.sweep.job = .driftSweep c p)
    (hread : (s.sweepFaultNoted r).freePort.takeDriftWord c p data
      = ((s.sweepFaultNoted r).freePort.driftSettled c).driftOn (c + 1)) :
    exec i s = exec (.driftSweepReadComplete data) (s.sweepFaultNoted r) := by
  rw [exec_driftSweepFails s hi h hretry hstale hjob, ← hread]
  exact (exec_driftSweepReadComplete (s.sweepFaultNoted r) data h hstale hjob).symm

/-- R120, R126: with entries left the next one's read is requested or held. -/
theorem State.freePort_runJob_drift (ha : s.arbiter.sweep = none) :
    s.freePort.runJob (.driftSweep c (p + 1)) = { s with
      arbiter := { s.arbiter with
        port := none
        sweep := if s.bufferHolds (s.connAddr ((s.circuit c).entries.getD p 0)) then none
          else some { addr := s.connAddr ((s.circuit c).entries.getD p 0) } }
      sweep := { s.sweep with
        job := .driftSweep c (p + 1)
        held := if s.bufferHolds (s.connAddr ((s.circuit c).entries.getD p 0)) then
          some (s.connAddr ((s.circuit c).entries.getD p 0), none) else none } } :=
  State.runJob_ready s.freePort (.driftSweep c (p + 1)) (s.connAddr ((s.circuit c).entries.getD p 0)) none rfl
    (State.sweepOutstanding_eq_false _ ha fun g hg => by cases hg)

/-- R126: what a drift leaves marked stays so while the sweep goes on. -/
theorem State.driftOn_marks (low k n : Nat) :
    (Table.get false s.report.owed k = true → Table.get false (s.driftOn low).report.owed k = true)
      ∧ (s.report.pending.getLsbD n = true → (s.driftOn low).report.pending.getLsbD n = true) := by
  have hon : SweepsOn s (s.driftOn low) := by
    unfold State.driftOn
    split
    · exact s.runJob_sweepsOn _
    · exact SweepsOn.after (State.startNextJob_sweepsOn _) <| SweepsOn.after (State.driftSweepEnded_sweepsOn _)
        ⟨rfl, rfl, rfl, rfl, rfl, fun _ => rfl, fun _ => id, fun _ => id⟩
  have hmoves := s.driftOn_moves (c := .classify) low
  generalize s.driftOn low = t at hon hmoves
  exact ⟨hon.owed k, hmoves.kept.pending (fun d hd => by cases hd) n⟩

/-- R16, R169: a circuit that drifts has its CIRCUIT report owed and DRIFT raised. -/
theorem State.driftSettled_marks (h : (s.circuit c).state = .settled) :
    Table.get false (s.driftSettled c).report.owed c = true
      ∧ (s.report.enables.getLsbD 5 = true → (s.driftSettled c).report.pending.getLsbD 5 = true) := by
  have hdrifts : s.driftSettled c = (s.setCircuitState c .drifted).raise .drift := if_pos h
  obtain ⟨m, ct, owed, wanted, b, hs⟩ := s.setCircuitState_frame c .drifted
  rw [hdrifts]
  refine ⟨?_, fun he => State.raise_pends .drift ?_⟩
  · rw [(State.raise_marks _ .drift).1]
    exact s.setCircuitState_owes c _ (by rw [h]; decide)
  · rw [hs]
    exact he

/-- Settles O46: each end of a read leads to `driftOn`, which `DriftRead.driftOn_passes` spells. -/
theorem driftSweepReadCompared : Obligations.DriftSweepReadCompared := by
  unfold Obligations.DriftSweepReadCompared
  intro s r c p data hprogress hstale hidle hjob
  dsimp only
  have hexec := exec_driftSweepReadComplete s data hprogress hstale hjob
  have hfails {i : Instr} (hi : failsAccess i) (hretry : r.retry = true) :=
    exec_driftSweepFails_as_read (data := data) hi hprogress hretry hstale hjob
  refine ⟨fun hleft => ⟨?_, fun i hi hretry => hfails hi hretry ?_⟩,
    fun base hset hbase => ⟨fun hword hp => ?_, fun hword hp => ?_, fun hword => ⟨?_, fun i hi hretry =>
      hfails hi hretry ?_⟩⟩⟩
  · rw [State.takeDriftWord_left data (by exact hleft)] at hexec
    exact ⟨_, hexec, State.freePort_driftRead.driftOn_passes⟩
  · rw [State.takeDriftWord_left data (by exact hleft), State.driftSettled_left (by exact hleft)]
  · have hnext : s.freePort.takeDriftWord c p data = s.freePort.runJob (.driftSweep c (p + 1)) :=
      (State.takeDriftWord_equal (s := s.freePort) hset hbase hword).trans (if_pos hp)
    rw [hexec, hnext, State.freePort_runJob_drift hidle, ← State.bufferHolds_eq]
  · have hend : s.freePort.takeDriftWord c p data = s.freePort.driftOn (c + 1) :=
      (State.takeDriftWord_equal (s := s.freePort) hset hbase hword).trans (if_neg (Nat.not_lt.mpr hp))
    rw [hend] at hexec
    exact ⟨_, hexec, State.freePort_driftRead.driftOn_passes⟩
  · rw [State.takeDriftWord_differs (s := s.freePort) hset hbase hword] at hexec
    obtain ⟨howed, hraised⟩ := State.driftSettled_marks (s := s.freePort) hset
    have hmarks := (s.freePort.driftSettled c).driftOn_marks (c + 1) c 5
    exact ⟨_, hexec, (State.driftSettled_driftRead hset).driftOn_passes, hmarks.1 howed,
      fun he => hmarks.2 (hraised he)⟩
  · exact State.takeDriftWord_differs (s := (s.sweepFaultNoted r).freePort) hset hbase hword

end Sys2Proof.Machine
end

section
/-!
The end of a window (R114 to R116): what its circuits take with them, and the drift sweep that may follow it (R55, R56).
-/

namespace Sys2Proof.Machine

variable {s t u v : State}

/-! ### An effect on each of some circuits -/

/-- An effect that changes one record, by what it was, made for each of some circuits
changes each of their records so. -/
theorem State.forEach_circuit (f : State → Nat → State) (g : Circuit → Circuit)
    (hf : ∀ t c k, (f t c).circuit k = if k = c then g (t.circuit c) else t.circuit k) (l : List Nat) (hl : l.Nodup)
    (k : Nat) : (s.forEach l f).circuit k = if k ∈ l then g (s.circuit k) else s.circuit k := by
  induction l generalizing s with
  | nil => rfl
  | cons c rest ih =>
    obtain ⟨hc, hrest⟩ := List.nodup_cons.mp hl
    refine (ih (s := f s c) hrest).trans ?_
    rw [hf]
    by_cases hk : k = c
    · subst hk
      simp [hc]
    · simp [hk]

/-- An effect that makes a CIRCUIT report owed for a circuit of one kind, made for each of some such circuits, makes
theirs owed. -/
theorem State.forEach_owes (f : State → Nat → State) (p : Circuit → Prop)
    (hf : ∀ t c k, k ≠ c → (f t c).circuit k = t.circuit k)
    (howes : ∀ t c, p (t.circuit c) → Table.get false (f t c).report.owed c = true)
    (hkeep : ∀ t c k, Table.get false t.report.owed k = true → Table.get false (f t c).report.owed k = true)
    (l : List Nat) (hl : l.Nodup) (hp : ∀ c ∈ l, p (s.circuit c)) :
    ∀ k ∈ l, Table.get false (s.forEach l f).report.owed k = true := by
  induction l generalizing s with
  | nil => exact fun k hk => absurd hk (List.not_mem_nil)
  | cons c rest ih =>
    obtain ⟨hc, hrest⟩ := List.nodup_cons.mp hl
    intro k hk
    rcases List.mem_cons.mp hk with rfl | hk
    · exact State.forEach_induct (f s k) (fun t => Table.get false t.report.owed k = true) f rest
        (fun t j _ => hkeep t j k) (howes s k (hp k (by simp)))
    · refine ih (s := f s c) hrest (fun j hj => ?_) k hk
      rw [hf s c j fun h => hc (h ▸ hj)]
      exact hp j (by simp [hj])

theorem State.mem_windowCircuits (c : Nat) :
    c ∈ s.windowCircuits ↔ c < 512 ∧ (s.circuit c).state.inWindow = true := by
  simp [State.windowCircuits, State.circuitsWhere, Config.circuits]

theorem State.windowCircuits_nodup : s.windowCircuits.Nodup := List.nodup_range.filter _

/-! ### The window circuits leave (R114, R115) -/

/-- R116: circuit `c` leaves the window with the record that `g` makes of its own; its state changes last (R16). -/
def State.leaveWindow (g : Circuit → Circuit) (s : State) (c : Nat) : State :=
  (s.putCircuit c { g (s.circuit c) with state := (s.circuit c).state }).setCircuitState c (g (s.circuit c)).state

/-- R116: every window circuit leaves with the record that `g` makes of its own. -/
def State.circuitsLeft (g : Circuit → Circuit) (s : State) : State := s.forEach s.windowCircuits (State.leaveWindow g)

variable (g : Circuit → Circuit)

theorem State.leaveWindow_circuit (s : State) (c k : Nat) :
    (State.leaveWindow g s c).circuit k = if k = c then g (s.circuit c) else s.circuit k := by
  unfold State.leaveWindow
  by_cases hk : k = c
  · subst hk
    simp
  · simp [hk]

theorem State.leaveWindow_owes (s : State) (c : Nat) (h : (g (s.circuit c)).state ≠ (s.circuit c).state) :
    Table.get false (State.leaveWindow g s c).report.owed c = true :=
  State.setCircuitState_owes _ c _ (by simpa using h.symm)

theorem State.leaveWindow_owed (s : State) (c k : Nat) (h : Table.get false s.report.owed k = true) :
    Table.get false (State.leaveWindow g s c).report.owed k = true :=
  State.setCircuitState_owed _ c _ k h

theorem State.circuitsLeft_storeReport : StoreReportOnly s (s.circuitsLeft g) :=
  State.forEach_induct s (StoreReportOnly s) _ _ (fun t c _ h =>
    StoreReportOnly.after (StoreReportOnly.after (State.setCircuitState_storeReport _ c _)
      (t.putCircuit_storeReport c _)) h) ⟨_, _, rfl⟩

theorem State.circuitsLeft_circuit (k : Nat) :
    (s.circuitsLeft g).circuit k
      = if k < 512 ∧ (s.circuit k).state.inWindow = true then g (s.circuit k) else s.circuit k := by
  simp only [← State.mem_windowCircuits]
  exact State.forEach_circuit _ g (State.leaveWindow_circuit g) s.windowCircuits State.windowCircuits_nodup k

/-- R16, R116: a CIRCUIT report is owed for every circuit that leaves. -/
theorem State.circuitsLeft_owes (hg : ∀ r, (g r).state.inWindow = false) (k : Nat) (hk : k < 512)
    (h : (s.circuit k).state.inWindow = true) :
    Table.get false (s.circuitsLeft g).report.owed k = true := by
  have hstays (t : State) (c j : Nat) (hj : j ≠ c) : (State.leaveWindow g t c).circuit j = t.circuit j :=
    (State.leaveWindow_circuit g t c j).trans (if_neg hj)
  have howes (t : State) (c : Nat) (hc : (t.circuit c).state.inWindow = true) :
      Table.get false (State.leaveWindow g t c).report.owed c = true := by
    refine State.leaveWindow_owes g t c fun he => ?_
    rw [← he, hg] at hc
    cases hc
  have hin : ∀ c ∈ s.windowCircuits, (s.circuit c).state.inWindow = true := fun c hc =>
    ((State.mem_windowCircuits c).mp hc).2
  have hmem : k ∈ s.windowCircuits := (State.mem_windowCircuits k).mpr ⟨hk, h⟩
  have hnodup := State.windowCircuits_nodup (s := s)
  unfold State.circuitsLeft
  generalize s.windowCircuits = l at hin hmem hnodup ⊢
  exact State.forEach_owes (State.leaveWindow g) (fun r => r.state.inWindow = true) hstays howes
    (State.leaveWindow_owed g) l hnodup hin k hmem

/-! ### The window ends (R116) -/

/-- R116: the end of a window empties the work set and makes the window QUIET, with marks of the Report Unit. -/
theorem State.endWindow_frame :
    s.endWindow = { s with
      window := { s.window with state := .quiet, workSet := [] }, report := s.endWindow.report } := by
  unfold State.endWindow
  rw [State.setWindowState_frame]
  unfold State.clearWorkSet
  split
  · rename_i h
    rw [← h]
  · rfl

theorem State.endWindow_owed (h : s.window.state ≠ .quiet) :
    s.endWindow.report.windowOwed = true ∧ s.endWindow.report.owed = s.report.owed := by
  have hstate : s.clearWorkSet.window.state = s.window.state := by
    unfold State.clearWorkSet
    split <;> rfl
  have howed : s.clearWorkSet.report.owed = s.report.owed := by
    unfold State.clearWorkSet
    split <;> rfl
  unfold State.endWindow
  rw [State.setWindowState_owes _ _ (by rw [hstate]; exact h), ← howed]
  exact ⟨rfl, rfl⟩

/-! ### The Sweep Engine goes on (R55, R56, R119) -/

/-- From `u` to `t` only the Sweep Engine and its request, the journal's demand and OVERRUN flag and the summary mark
change. -/
def EngineOnly (u t : State) : Prop :=
  ∃ sweep request demand overrun wanted, t = { u with
    sweep
    arbiter := { u.arbiter with sweep := request }
    journal := { u.journal with demand, overrun }
    report := { u.report with wanted } }

theorem EngineOnly.refl (u : State) : EngineOnly u u := ⟨_, _, _, _, _, rfl⟩

theorem EngineOnly.after (h' : EngineOnly v t) (h : EngineOnly u v) : EngineOnly u t := by
  obtain ⟨sw, rq, d, o, w, rfl⟩ := h
  obtain ⟨sw', rq', d', o', w', rfl⟩ := h'
  exact ⟨sw', rq', d', o', w', rfl⟩

/-- What the Sweep Engine's going on leaves as it was. -/
theorem EngineOnly.kept (h : EngineOnly u t) :
    t.store = u.store ∧ t.window = u.window ∧ t.trace = u.trace ∧ t.verdict = u.verdict ∧ t.pass = u.pass
      ∧ t.journal.waiting = u.journal.waiting ∧ t.journal.judged = u.journal.judged
      ∧ t.report.owed = u.report.owed ∧ t.report.windowOwed = u.report.windowOwed
      ∧ t.arbiter.port = u.arbiter.port := by
  obtain ⟨sw, rq, d, o, w, rfl⟩ := h
  exact ⟨rfl, rfl, rfl, rfl, rfl, rfl, rfl, rfl, rfl, rfl⟩

theorem State.runJob_engineOnly (j : Job) : EngineOnly v (v.runJob j) := by
  rw [State.runJob_frame]
  exact ⟨_, _, _, _, _, rfl⟩

theorem State.driftSweepEnded_engineOnly : EngineOnly v v.driftSweepEnded := by
  unfold State.driftSweepEnded
  split
  · rw [State.clearOverrun_frame]
    exact ⟨_, _, _, _, _, rfl⟩
  · rw [State.markDriftDue_frame]
    exact ⟨_, _, _, _, _, rfl⟩
  all_goals exact EngineOnly.refl v

/-- R119: with no restore listed the first waiting job starts without a change of any circuit. -/
theorem State.startNextJob_engineOnly (hl : v.sweep.restoreList = []) : EngineOnly v v.startNextJob := by
  by_cases hj : v.sweep.job = .none
  swap
  · rw [State.startNextJob_busy v hj]
    exact EngineOnly.refl v
  cases hc : v.sweep.captureRequest with
  | some k =>
    rw [State.startNextJob_capture v k hj hc]
    exact EngineOnly.after (State.runJob_engineOnly _) ⟨_, _, _, _, _, rfl⟩
  | none =>
    cases hd : v.sweep.driftRequest with
    | false =>
      rw [State.startNextJob_nothing hj hc hd hl]
      exact EngineOnly.refl v
    | true =>
      have hbegun : EngineOnly v v.driftBegun := ⟨_, _, _, _, _, rfl⟩
      rw [State.startNextJob_drift hj hc hd, State.startDriftSweep_eq]
      cases v.nextSettled 0 with
      | some n => exact EngineOnly.after (State.runJob_engineOnly _) hbegun
      | none =>
        have hlist : v.driftBegun.driftSweepEnded.sweep.restoreList = [] := by
          rw [State.driftSweepEnded_frame]
          exact hl
        rw [Option.elim_none, State.startRestore_nil hlist]
        exact EngineOnly.after State.driftSweepEnded_engineOnly hbegun

/-- R119: none of the waiting jobs is a close sweep. -/
theorem State.startNextJob_notCloseSweep (h : v.sweep.job.isCloseSweep = false) :
    v.startNextJob.sweep.job.isCloseSweep = false := by
  have hrestore (w : State) (hw : w.sweep.job.isCloseSweep = false) :
      w.startRestore.sweep.job.isCloseSweep = false := by
    unfold State.startRestore
    split
    · exact hw
    · rw [State.runJob_frame]
      rfl
  unfold State.startNextJob
  split
  · exact h
  split
  · rw [State.runJob_frame]
    rfl
  split
  · rw [State.startDriftSweep_eq]
    cases v.nextSettled 0 with
    | some n =>
      rw [Option.elim_some, State.runJob_frame]
      rfl
    | none =>
      rw [Option.elim_none]
      refine hrestore _ ?_
      rw [State.driftSweepEnded_frame]
      exact h
  · exact hrestore v h

/-! ### The drift sweep after a window -/

/-- R55, R119: a drift sweep neither due nor requested is not started, and nothing else is. -/
theorem State.afterWindow_notDue (hl : v.sweep.restoreList = []) (hc : v.sweep.captureRequest = none)
    (hd : v.sweep.driftRequest = false) (hdue : v.driftDue = false) : v.markDriftDue.startNextJob = v := by
  have hmark : v.markDriftDue = v := by simp [State.markDriftDue, hdue]
  rw [hmark]
  by_cases hj : v.sweep.job = .none
  · exact State.startNextJob_nothing hj hc hd hl
  · exact State.startNextJob_busy v hj

theorem State.markDriftDue_due (hdue : v.driftDue = true) : v.markDriftDue = v.driftRequested := if_pos hdue

theorem State.markDriftDue_engineOnly : EngineOnly v v.markDriftDue := by
  rw [State.markDriftDue_frame]
  exact ⟨_, _, _, _, _, rfl⟩

/-- R55, R119: after a window with no restore listed only the Sweep Engine goes on. -/
theorem State.afterWindow_engineOnly (hl : v.sweep.restoreList = []) : EngineOnly v v.markDriftDue.startNextJob := by
  refine EngineOnly.after (State.startNextJob_engineOnly ?_) State.markDriftDue_engineOnly
  rw [State.markDriftDue_frame]
  exact hl

/-- R55, R126: with the engine idle a drift sweep that is due starts at the first SETTLED circuit. -/
theorem State.afterWindow_driftAt {n : Nat} (hc : v.sweep.captureRequest = none) (hj : v.sweep.job = .none)
    (hdue : v.driftDue = true) (hn : n < 512) (hset : (v.circuit n).state = .settled)
    (hfirst : ∀ k, k < n → (v.circuit k).state ≠ .settled) :
    v.markDriftDue.startNextJob = v.driftRequested.driftBegun.runJob (.driftSweep n 1) := by
  rw [State.markDriftDue_due hdue]
  exact State.startNextJob_driftAt (v := v.driftRequested) hj hc rfl
    (State.nextSettled_zero_eq_some.mpr ⟨hn, hset, hfirst⟩)

/-- R55, R56, R127: with none it has ended at once. -/
theorem State.afterWindow_driftOver (hl : v.sweep.restoreList = []) (hc : v.sweep.captureRequest = none)
    (hj : v.sweep.job = .none) (hdue : v.driftDue = true)
    (hnone : ∀ k, k < 512 → (v.circuit k).state ≠ .settled) :
    v.markDriftDue.startNextJob = { v with
      journal := { v.journal with demand := .none, overrun := none }
      sweep := { v.sweep with driftRequest := false }
      report := { v.report with wanted := v.report.wanted || v.journal.overrun.isSome } } := by
  rw [State.markDriftDue_due hdue]
  exact State.startNextJob_driftOver (v := v.driftRequested) hj hc rfl hl (State.driftDue_iff.mp hdue).1
    (State.nextSettled_zero_eq_none.mpr hnone)

end Sys2Proof.Machine
end

section
/-! Settles O31: an ACCEPT (R115, R116). -/

namespace Sys2Proof.Machine

variable {s : State}

/-! ### The window's circuits leave it (R115) -/

/-- R115: the record with which a window circuit leaves an accepted window. -/
def Circuit.accepted (degradedOk : Bool) (r : Circuit) : Circuit :=
  if acceptable degradedOk r.state then
    { r with
      state := .settled, baseline := r.swept, cause := none, prior := none, swept := none, sweepResult := none }
  else { r with state := .faulted, prior := none, swept := none, sweepResult := none }

theorem acceptable_iff (degradedOk : Bool) (st : CircuitState) :
    acceptable degradedOk st = true ↔ st = .confirmed ∨ (st = .degraded ∧ degradedOk = true) := by
  cases st <;> simp [acceptable]

theorem State.leaveAccepted_eq (degradedOk : Bool) :
    State.leaveAccepted degradedOk = State.leaveWindow (Circuit.accepted degradedOk) := by
  funext t c
  unfold State.leaveAccepted State.leaveWindow Circuit.accepted
  dsimp only
  split <;> rfl

/-- R115: a circuit leaves an accepted window SETTLED or FAULTED. -/
theorem Circuit.accepted_outside (degradedOk : Bool) (r : Circuit) :
    (r.accepted degradedOk).state.inWindow = false := by
  unfold Circuit.accepted
  split <;> rfl

/-! ### The accepted window -/

/-- R115, R116: every window circuit has left the accepted window. -/
def State.circuitsAccepted (s : State) : State :=
  s.circuitsLeft (Circuit.accepted (degradedAcceptable s.directive.chain))

theorem State.circuitsAccepted_storeReport : StoreReportOnly s s.circuitsAccepted :=
  State.circuitsLeft_storeReport _

/-- R56, R115, R116: the accepted window has ended, and the journal is told. -/
def State.windowAccepted (s : State) : State := s.circuitsAccepted.endWindow.clearOverrunIfUnowed

theorem State.acceptAccept_eq : s.acceptAccept = s.windowAccepted.markDriftDue.startNextJob := by
  unfold State.acceptAccept
  dsimp only
  rw [State.leaveAccepted_eq]
  rfl

/-- R56: the OVERRUN flag clears where no drift sweep is owed. -/
theorem State.clearOverrunIfUnowed_frame :
    s.clearOverrunIfUnowed = { s with
      journal := { s.journal with overrun := if s.journal.demand = .none then none else s.journal.overrun }
      report := { s.report with wanted := s.clearOverrunIfUnowed.report.wanted } } := by
  unfold State.clearOverrunIfUnowed
  split
  · rw [State.clearOverrun_frame]
  · rfl

theorem State.windowAccepted_frame :
    s.windowAccepted = { s with
      store := s.circuitsAccepted.store
      window := { s.window with state := .quiet, workSet := [] }
      journal := { s.journal with overrun := if s.journal.demand = .none then none else s.journal.overrun }
      report := s.windowAccepted.report } := by
  obtain ⟨st, rp, h⟩ := State.circuitsAccepted_storeReport (s := s)
  unfold State.windowAccepted
  rw [State.clearOverrunIfUnowed_frame, State.endWindow_frame, h]

/-- R98, R116: the end of the window makes a WINDOW report owed. -/
theorem State.windowAccepted_owed (h : s.window.state ≠ .quiet) :
    s.windowAccepted.report.windowOwed = true ∧ s.windowAccepted.report.owed = s.circuitsAccepted.report.owed := by
  have hstate : s.circuitsAccepted.window.state ≠ .quiet := by
    obtain ⟨st, rp, hframe⟩ := State.circuitsAccepted_storeReport (s := s)
    rw [hframe]
    exact h
  have howed := s.circuitsAccepted.endWindow_owed hstate
  unfold State.windowAccepted
  generalize s.circuitsAccepted = v at howed ⊢
  rw [State.clearOverrunIfUnowed_frame]
  exact howed

/-- R115: the circuits after an ACCEPT. -/
theorem State.windowAccepted_circuit (k : Nat) :
    s.windowAccepted.circuit k = if k < 512 ∧ (s.circuit k).state.inWindow = true then
      (s.circuit k).accepted (degradedAcceptable s.directive.chain) else s.circuit k := by
  have hstore : s.windowAccepted.store = s.circuitsAccepted.store := by rw [State.windowAccepted_frame]
  exact (State.circuit_of_store hstore k).trans (State.circuitsLeft_circuit _ k)

/-! ### O31 -/

/-- R172: the flag that lets an ACCEPT take DEGRADED circuits. -/
theorem degradedAcceptable_eq (chain : List (List Word)) :
    degradedAcceptable chain = (chainWord chain 0 1).getLsbD 0 := by
  unfold degradedAcceptable bit
  rfl

/-- R115: the record of the statement. -/
theorem Circuit.accepted_eq (degradedOk : Bool) (r : Circuit) :
    r.accepted degradedOk = { r with
      state := if r.state = .confirmed ∨ (r.state = .degraded ∧ degradedOk = true) then .settled else .faulted
      baseline := if r.state = .confirmed ∨ (r.state = .degraded ∧ degradedOk = true) then r.swept else r.baseline
      cause := if r.state = .confirmed ∨ (r.state = .degraded ∧ degradedOk = true) then none else r.cause
      prior := none, swept := none, sweepResult := none } := by
  unfold Circuit.accepted
  simp only [acceptable_iff]
  split <;> rfl

theorem exec_accept (h : s.inHand .accept) (hw : s.window.state = .concluded) :
    exec .accept s = .next (s.acceptAccept.answerDirective ⟨.done, 0⟩).endEvent :=
  exec_directive_done s (refusal := fun s => s.refusedUnless .concluded) rfl h (if_pos hw)

/-- Settles O31: the accepted window, then the drift sweep that may follow. -/
theorem acceptExecuted : Obligations.AcceptExecuted := by
  unfold Obligations.AcceptExecuted
  intro s hand hw hlist hcapture
  dsimp only
  have hquiet : s.window.state ≠ .quiet := by rw [hw]; decide
  have howner : ∀ i, (s.acceptAccept.mapEntry i).owner = (s.mapEntry i).owner :=
    (s.acceptAccept_moves (c := .accept)).kept.owners (by rintro (h | h | h | h) <;> cases h)
  refine ⟨_, exec_accept hand hw, ?_⟩
  rw [State.answerDirective_plain _ _ rfl]
  rw [State.acceptAccept_eq] at howner ⊢
  have hcircuits := State.windowAccepted_circuit (s := s)
  have howes := State.circuitsLeft_owes (s := s) _ (Circuit.accepted_outside (degradedAcceptable s.directive.chain))
  obtain ⟨hwindowOwed, howed⟩ := State.windowAccepted_owed hquiet
  unfold State.circuitsAccepted at howed
  rw [← howed] at howes
  simp only [degradedAcceptable_eq, Circuit.accepted_eq] at hcircuits
  have hframe := State.windowAccepted_frame (s := s)
  generalize s.windowAccepted = w at *
  have hw' : w.window = { s.window with state := .quiet, workSet := [] } ∧ w.trace = s.trace
      ∧ w.verdict = s.verdict ∧ w.pass = s.pass ∧ w.sweep = s.sweep ∧ w.arbiter = s.arbiter
      ∧ w.layout = s.layout
      ∧ w.journal = { s.journal with
          overrun := if s.journal.demand = .none then none else s.journal.overrun } := by
    rw [hframe]
    exact ⟨rfl, rfl, rfl, rfl, rfl, rfl, rfl, rfl⟩
  obtain ⟨hwindow, htrace, hverdict, hpass, hsweep, harbiter, hlayout, hjournal⟩ := hw'
  have hlist' : w.sweep.restoreList = [] := by rw [hsweep, hlist]
  have hcapture' : w.sweep.captureRequest = none := by rw [hsweep, hcapture]
  obtain ⟨kstore, kwindow, ktrace, kverdict, kpass, kwaiting, kjudged, kowed, kwindowOwed, -⟩ :=
    (State.afterWindow_engineOnly hlist').kept
  have kcircuit : ∀ k, w.markDriftDue.startNextJob.circuit k = w.circuit k := State.circuit_of_store kstore
  refine ⟨fun c hc hin => ⟨(kcircuit c).trans ((hcircuits c).trans (if_pos ⟨hc, hin⟩)), ?_⟩, fun c hc => ?_,
    kwindow.trans hwindow, kwindowOwed.trans hwindowOwed, howner, ktrace.trans htrace, kverdict.trans hverdict,
    kpass.trans hpass, kwaiting.trans (by rw [hjournal]), kjudged.trans (by rw [hjournal]), fun hrequest hjob => ?_⟩
  · exact (congrArg (fun o => Table.get false o c) kowed).trans (howes c hc hin)
  · refine (kcircuit c).trans ((hcircuits c).trans (if_neg fun h => ?_))
    rcases hc with hc | hc
    · exact absurd h.1 (Nat.not_lt.mpr hc)
    · rw [hc] at h
      cases h.2
  · have hdue : w.driftDue = true ↔ s.journal.demand = .owed ∧ s.journal.occupancy < 192 := by
      rw [State.driftDue_iff, hjournal, hwindow]
      simp [Journal.occupancy]
    have hidle : w.driftDue = false → w.markDriftDue.startNextJob = w :=
      State.afterWindow_notDue hlist' hcapture' (by rw [hsweep, hrequest])
    have hidle' : w.sweep.job = .none := by rw [hsweep, hjob]
    refine ⟨fun hnone => ?_, fun hsome hnot => ?_, fun hd => ⟨fun n hn hset hfirst => ?_, fun hnone => ?_⟩⟩
    · have hnot : w.driftDue = false := Bool.eq_false_iff.mpr fun h => by
        have howed := (hdue.mp h).1
        rw [hnone] at howed
        cases howed
      rw [hidle hnot]
      rw [if_pos hnone] at hjournal
      exact ⟨hjournal, hsweep⟩
    · rw [hidle (Bool.eq_false_iff.mpr fun h => hnot (hdue.mp h))]
      rw [if_neg hsome] at hjournal
      exact ⟨hjournal, hsweep⟩
    · have hat := State.afterWindow_driftAt hcapture' hidle' (hdue.mpr hd) hn (kcircuit n ▸ hset)
        fun k hk => kcircuit k ▸ hfirst k hk
      have howed : s.journal.demand = .owed := hd.1
      rw [hat]
      refine ⟨?_, ?_, fun hport => ?_⟩
      · rw [State.runJob_frame]
        simp [State.driftRequested, State.driftBegun, hjournal, howed]
      · rw [State.runJob_frame]
      · refine State.firstAccessMade_congr (v := w.driftRequested.driftBegun) (congrArg Arbiter.sweep harbiter) hlayout
          hpass (State.runJob_firstAccess ?_ (.driftSweep n 1) n none rfl)
        exact harbiter ▸ hport
    · have hover := State.afterWindow_driftOver hlist' hcapture' hidle' (hdue.mpr hd)
        fun k hk => kcircuit k ▸ hnone k hk
      rw [hover]
      exact ⟨by rw [hjournal], hidle'⟩

end Sys2Proof.Machine
end

section
/-! Settles O30: an ABANDON (R113, R114, R116). -/

namespace Sys2Proof.Machine

variable {s : State}

/-! ### The close sweep stops (R113, R125) -/

/-- R113: the mark that a granted read of a stopped close sweep carries. -/
def Grant.discarded (g : Grant) : Grant :=
  if g.who = .sweep then { g with request := { g.request with stale := true } } else g

theorem Grant.discarded_who (g : Grant) : g.discarded.who = g.who := by
  unfold Grant.discarded
  split <;> rfl

theorem State.stopCloseSweep_running (h : s.sweep.job.isCloseSweep = true) :
    s.stopCloseSweep = { s with
      sweep := { s.sweep with job := .none, held := none }
      arbiter := { s.arbiter with sweep := none, port := s.arbiter.port.map Grant.discarded } } := by
  unfold State.stopCloseSweep
  cases hj : s.sweep.job with
  | closeSweep set c p words => rfl
  | none | capture | driftSweep | restore => rw [hj] at h; cases h

theorem State.stopCloseSweep_none (h : s.sweep.job.isCloseSweep = false) : s.stopCloseSweep = s := by
  unfold State.stopCloseSweep
  cases hj : s.sweep.job with
  | closeSweep set c p words => rw [hj] at h; cases h
  | none | capture | driftSweep | restore => rfl

/-- R113: the stop of a close sweep leaves the waiting jobs as they were, and whoever has the port. -/
theorem State.stopCloseSweep_frame :
    s.stopCloseSweep = { s with sweep := s.stopCloseSweep.sweep, arbiter := s.stopCloseSweep.arbiter }
      ∧ s.stopCloseSweep.sweep.restoreList = s.sweep.restoreList
      ∧ s.stopCloseSweep.sweep.captureRequest = s.sweep.captureRequest
      ∧ s.stopCloseSweep.sweep.driftRequest = s.sweep.driftRequest
      ∧ s.stopCloseSweep.sweep.job.isCloseSweep = false
      ∧ (s.stopCloseSweep.arbiter.port.any fun g => decide (g.who = .sweep))
          = s.arbiter.port.any fun g => decide (g.who = .sweep) := by
  cases h : s.sweep.job.isCloseSweep with
  | true =>
    rw [State.stopCloseSweep_running h]
    refine ⟨rfl, rfl, rfl, rfl, rfl, ?_⟩
    cases s.arbiter.port with
    | none => rfl
    | some g => simp [Grant.discarded_who]
  | false =>
    rw [State.stopCloseSweep_none h]
    exact ⟨rfl, rfl, rfl, rfl, h, rfl⟩

/-! ### The window's timers stop (R113) -/

theorem State.stopWindowTimers_frame :
    s.stopWindowTimers = { s with
      window := { s.window with deadline := .stopped, settle := .stopped }
      verdict := { limit := s.verdict.limit.stop, steady := s.verdict.steady.stop }
      trace := { s.trace with evidence := s.stopWindowTimers.trace.evidence } } := by
  obtain ⟨ev, hev⟩ := (State.stopVerdictTimers { s with
    window := { s.window with deadline := .stopped, settle := .stopped } }).stopSilence_some
  unfold State.stopWindowTimers
  rw [hev]
  rfl

theorem State.stopWindowTimers_evidenceOf (ch : Nat) :
    s.stopWindowTimers.evidenceOf ch = { s.evidenceOf ch with silence := .stopped } :=
  State.stopSilence_evidenceOf _ ch

/-! ### The window's circuits leave it (R114) -/

/-- R114: the record with which a window circuit leaves an abandoned window. -/
def Circuit.abandoned (r : Circuit) : Circuit :=
  { r with
    state := abandonedState r
    cause := none, verdictChanges := 0, prior := none, swept := none, sweepResult := none }

theorem State.leaveAbandoned_eq : State.leaveAbandoned = State.leaveWindow Circuit.abandoned := rfl

/-- R114: a circuit leaves an abandoned window SETTLED, DRIFTED or FAULTED. -/
theorem Circuit.abandoned_outside (r : Circuit) : r.abandoned.state.inWindow = false := by
  show (abandonedState r).inWindow = false
  unfold abandonedState
  repeat' split
  case h_1 o _ => cases o <;> rfl
  all_goals rfl

/-- R114: the first row that holds. -/
theorem abandonedState_eq (r : Circuit) :
    abandonedState r =
      if 0 < r.changeCount ∨ r.redeclared = true ∨ r.undeclared = true ∨ r.baseline = none
          ∨ r.sweepResult = some .changed ∨ r.sweepResult = some .new then .drifted
      else r.prior.elim .drifted OutsideState.toState := by
  have hprior : abandonedState { r with
      changeCount := 0, redeclared := false, undeclared := false, baseline := some [], sweepResult := none }
      = r.prior.elim .drifted OutsideState.toState := by
    simp only [abandonedState]
    cases r.prior <;> rfl
  by_cases hc : 0 < r.changeCount ∨ r.redeclared = true ∨ r.undeclared = true
  · rw [if_pos (by tauto)]
    exact if_pos hc
  by_cases hb : r.baseline = none
  · rw [if_pos (by tauto)]
    exact (if_neg hc).trans (if_pos hb)
  by_cases hr : r.sweepResult = some .changed ∨ r.sweepResult = some .new
  · rw [if_pos (by tauto)]
    exact (if_neg hc).trans ((if_neg hb).trans (if_pos hr))
  · rw [if_neg (by tauto), ← hprior]
    exact (if_neg hc).trans ((if_neg hb).trans (if_neg hr))

/-! ### The abandoned window -/

/-- R113, R114: the close sweep and the timers have stopped, and every window circuit has left. -/
def State.circuitsAbandoned (s : State) : State := s.stopCloseSweep.stopWindowTimers.circuitsLeft Circuit.abandoned

theorem State.circuitsAbandoned_storeReport (s : State) :
    StoreReportOnly s.stopCloseSweep.stopWindowTimers s.circuitsAbandoned := State.circuitsLeft_storeReport _

/-- R113: stopping the sweep and the timers changes no circuit, nor the window state. -/
theorem State.stopped_kept (s : State) :
    s.stopCloseSweep.stopWindowTimers.store = s.store
      ∧ s.stopCloseSweep.stopWindowTimers.window.state = s.window.state
      ∧ s.stopCloseSweep.trace = s.trace := by
  obtain ⟨hstopped, -⟩ := State.stopCloseSweep_frame (s := s)
  rw [State.stopWindowTimers_frame]
  generalize s.stopCloseSweep = w at hstopped
  rw [hstopped]
  exact ⟨rfl, rfl, rfl⟩

/-- R56, R113, R116: the abandoned window has ended, and a drift sweep is owed if the journal overran. -/
def State.windowAbandoned (s : State) : State := s.circuitsAbandoned.endWindow.oweSweepIfOverrun

theorem State.acceptAbandon_eq : s.acceptAbandon = s.windowAbandoned.markDriftDue.startNextJob := by
  unfold State.acceptAbandon
  dsimp only
  rw [State.leaveAbandoned_eq]
  rfl

theorem State.oweSweepIfOverrun_frame :
    s.oweSweepIfOverrun = { s with journal := { s.journal with
      demand := if s.journal.demand = .none ∧ s.journal.overrun.isSome = true then .owed
        else s.journal.demand } } := by
  unfold State.oweSweepIfOverrun
  simp only [and_comm (a := s.journal.demand = .none)]
  split <;> rfl

theorem State.windowAbandoned_frame :
    s.windowAbandoned = { s with
      sweep := s.stopCloseSweep.sweep, arbiter := s.stopCloseSweep.arbiter
      store := s.circuitsAbandoned.store
      window := { s.window with state := .quiet, deadline := .stopped, settle := .stopped, workSet := [] }
      verdict := { limit := s.verdict.limit.stop, steady := s.verdict.steady.stop }
      trace := { s.trace with evidence := s.stopCloseSweep.stopWindowTimers.trace.evidence }
      journal := { s.journal with
        demand := if s.journal.demand = .none ∧ s.journal.overrun.isSome = true then .owed else s.journal.demand }
      report := s.windowAbandoned.report } := by
  obtain ⟨st, rp, h⟩ := s.circuitsAbandoned_storeReport
  obtain ⟨hstopped, -⟩ := State.stopCloseSweep_frame (s := s)
  have htimers := s.stopCloseSweep.stopWindowTimers_frame
  unfold State.windowAbandoned
  generalize s.circuitsAbandoned = u at h ⊢
  generalize s.stopCloseSweep.stopWindowTimers = v at htimers h ⊢
  generalize s.stopCloseSweep = w at hstopped htimers ⊢
  rw [State.oweSweepIfOverrun_frame, State.endWindow_frame, h, htimers, hstopped]

/-- R98, R116: the end of the window makes a WINDOW report owed. -/
theorem State.windowAbandoned_owed (h : s.window.state ≠ .quiet) :
    s.windowAbandoned.report.windowOwed = true ∧ s.windowAbandoned.report.owed = s.circuitsAbandoned.report.owed := by
  have hstate : s.circuitsAbandoned.window.state ≠ .quiet := by
    obtain ⟨st, rp, hframe⟩ := s.circuitsAbandoned_storeReport
    rw [hframe]
    exact s.stopped_kept.2.1 ▸ h
  have howed := s.circuitsAbandoned.endWindow_owed hstate
  unfold State.windowAbandoned
  generalize s.circuitsAbandoned = v at howed ⊢
  rw [State.oweSweepIfOverrun_frame]
  exact howed

/-- R114: the circuits after an ABANDON. -/
theorem State.windowAbandoned_circuit (k : Nat) :
    s.windowAbandoned.circuit k = if k < 512 ∧ (s.circuit k).state.inWindow = true then (s.circuit k).abandoned
      else s.circuit k := by
  have hstore : s.windowAbandoned.store = s.circuitsAbandoned.store := by rw [State.windowAbandoned_frame]
  have hleft := State.circuitsLeft_circuit (s := s.stopCloseSweep.stopWindowTimers) Circuit.abandoned k
  simp only [State.circuit_of_store s.stopped_kept.1] at hleft
  exact (State.circuit_of_store hstore k).trans hleft

theorem State.circuitsAbandoned_owes (k : Nat) (hk : k < 512) (h : (s.circuit k).state.inWindow = true) :
    Table.get false s.circuitsAbandoned.report.owed k = true := by
  rw [← State.circuit_of_store s.stopped_kept.1] at h
  unfold State.circuitsAbandoned
  generalize s.stopCloseSweep.stopWindowTimers = v at h ⊢
  exact State.circuitsLeft_owes Circuit.abandoned Circuit.abandoned_outside k hk h

theorem State.windowAbandoned_evidenceOf (ch : Nat) :
    s.windowAbandoned.evidenceOf ch = { s.evidenceOf ch with silence := .stopped } := by
  have hevidence := s.stopCloseSweep.stopWindowTimers_evidenceOf ch
  have htrace : s.stopCloseSweep.evidenceOf ch = s.evidenceOf ch := by
    simp only [State.evidenceOf, s.stopped_kept.2.2]
  rw [htrace] at hevidence
  rw [State.windowAbandoned_frame]
  exact hevidence

/-! ### O30 -/

/-- R120: with no request of the engine waiting, an access that is ready is requested, or held while a write to its word
is in the buffer or a granted access of the engine runs. -/
theorem State.requestOrHold_granted (addr : Nat) (data : Option Word) (ha : s.arbiter.sweep = none) :
    let waits := (s.arbiter.port.any fun g => decide (g.who = .sweep))
      || s.pass.buffer.any fun b => decide (b.addr = addr)
    (s.requestOrHold addr data).arbiter.sweep = (if waits then none else some { addr, write := data.map (·, 0xF) })
      ∧ (s.requestOrHold addr data).sweep.held = if waits then some (addr, data) else none := by
  have hout : s.sweepOutstanding = s.arbiter.port.any fun g => decide (g.who = .sweep) := by
    unfold State.sweepOutstanding
    rw [ha]
    rfl
  dsimp only
  rw [← hout, ← State.bufferHolds_eq, Bool.or_comm]
  unfold State.requestOrHold
  split
  · exact ⟨ha, rfl⟩
  · exact ⟨rfl, rfl⟩

/-- R120, R126: so is the first read of a drift sweep. -/
theorem State.runJob_driftGranted {v : State} (n : Nat) (ha : v.arbiter.sweep = none) :
    let first := v.connAddr ((v.circuit n).entries.getD 0 0)
    let waits := (v.arbiter.port.any fun g => decide (g.who = .sweep))
      || v.pass.buffer.any fun b => decide (b.addr = first)
    (v.runJob (.driftSweep n 1)).arbiter.sweep = (if waits then none else some { addr := first })
      ∧ (v.runJob (.driftSweep n 1)).sweep.held = if waits then some (first, none) else none := by
  have hrun : v.runJob (.driftSweep n 1) = State.requestOrHold { v with
      sweep := { v.sweep with job := .driftSweep n 1 } } (v.connAddr ((v.circuit n).entries.getD 0 0)) none :=
    State.requestSweep_ready _ _ none rfl
  rw [hrun]
  exact State.requestOrHold_granted _ none ha

theorem exec_abandon (h : s.inHand .abandon) (hr : s.abandonRefusal = none) :
    exec .abandon s = .next (s.acceptAbandon.answerDirective ⟨.done, 0⟩).endEvent :=
  exec_directive_done s (refusal := State.abandonRefusal) rfl h hr

/-- Settles O30: the abandoned window, then the drift sweep that may follow. -/
theorem abandonExecuted : Obligations.AbandonExecuted := by
  unfold Obligations.AbandonExecuted
  intro s hand hrefusal hlist hcapture
  dsimp only
  have hquiet : s.window.state ≠ .quiet := fun h => by
    unfold State.abandonRefusal at hrefusal
    rw [h] at hrefusal
    cases hrefusal
  have howner : ∀ i, (s.acceptAbandon.mapEntry i).owner = (s.mapEntry i).owner :=
    (s.acceptAbandon_moves (c := .abandon)).kept.owners (by rintro (h | h | h | h) <;> cases h)
  refine ⟨_, exec_abandon hand hrefusal, ?_⟩
  rw [State.answerDirective_plain _ _ rfl]
  rw [State.acceptAbandon_eq] at howner ⊢
  have hcircuits := State.windowAbandoned_circuit (s := s)
  have howes := State.circuitsAbandoned_owes (s := s)
  have hevidence := State.windowAbandoned_evidenceOf (s := s)
  obtain ⟨hwindowOwed, howed⟩ := State.windowAbandoned_owed hquiet
  rw [← howed] at howes
  have hframe := State.windowAbandoned_frame (s := s)
  obtain ⟨-, hstopList, hstopCapture, hstopDrift, hstopJob, hstopPort⟩ := State.stopCloseSweep_frame (s := s)
  generalize s.windowAbandoned = w at *
  have hw' : w.window = { s.window with state := .quiet, deadline := .stopped, settle := .stopped, workSet := [] }
      ∧ w.verdict = { limit := s.verdict.limit.stop, steady := s.verdict.steady.stop } ∧ w.pass = s.pass
      ∧ w.sweep = s.stopCloseSweep.sweep ∧ w.arbiter = s.stopCloseSweep.arbiter ∧ w.layout = s.layout
      ∧ w.journal = { s.journal with demand :=
          if s.journal.demand = .none ∧ s.journal.overrun.isSome = true then .owed else s.journal.demand } := by
    rw [hframe]
    exact ⟨rfl, rfl, rfl, rfl, rfl, rfl, rfl⟩
  obtain ⟨hwindow, hverdict, hpass, hsweep, harbiter, hlayout, hjournal⟩ := hw'
  have hlist' : w.sweep.restoreList = [] := by rw [hsweep, hstopList, hlist]
  have hcapture' : w.sweep.captureRequest = none := by rw [hsweep, hstopCapture, hcapture]
  obtain ⟨kstore, kwindow, ktrace, kverdict, kpass, kwaiting, kjudged, kowed, kwindowOwed, kport⟩ :=
    (State.afterWindow_engineOnly hlist').kept
  have kcircuit : ∀ k, w.markDriftDue.startNextJob.circuit k = w.circuit k := State.circuit_of_store kstore
  have hdue : w.driftDue = true ↔
      (if s.journal.demand = .none ∧ s.journal.overrun.isSome = true then .owed else s.journal.demand) = Demand.owed
        ∧ s.journal.occupancy < 192 := by
    rw [State.driftDue_iff, hjournal, hwindow]
    simp [Journal.occupancy]
  have hjob' : w.markDriftDue.startNextJob.sweep.job.isCloseSweep = false := by
    refine State.startNextJob_notCloseSweep ?_
    rw [State.markDriftDue_frame]
    exact hsweep ▸ hstopJob
  refine ⟨fun c hc hin => ⟨?_, ?_⟩, fun c hc => ?_, kwindow.trans hwindow, kwindowOwed.trans hwindowOwed,
    kverdict.trans hverdict, fun ch => ?_, hjob', fun r n hclose hport => ?_, howner, kwaiting.trans (by rw [hjournal]),
    kjudged.trans (by rw [hjournal]), kpass.trans hpass, fun hrequest => ⟨fun hnot => ?_, fun hd hidle => ?_⟩⟩
  · refine (kcircuit c).trans ((hcircuits c).trans ((if_pos ⟨hc, hin⟩).trans ?_))
    unfold Circuit.abandoned
    rw [abandonedState_eq]
    cases hp : (s.circuit c).prior with
    | none => rfl
    | some o => cases o <;> rfl
  · exact (congrArg (fun o => Table.get false o c) kowed).trans (howes c hc hin)
  · refine (kcircuit c).trans ((hcircuits c).trans (if_neg fun h => ?_))
    rcases hc with hc | hc
    · exact absurd h.1 (Nat.not_lt.mpr hc)
    · rw [hc] at h
      cases h.2
  · exact (congrArg (fun tr : Trace => Table.get ({} : Evidence) tr.evidence ch) ktrace).trans (hevidence ch)
  · refine kport.trans ?_
    rw [harbiter, State.stopCloseSweep_running hclose, hport]
    rfl
  · have hnotDue : w.driftDue = false := Bool.eq_false_iff.mpr fun h => hnot (hdue.mp h)
    rw [State.afterWindow_notDue hlist' hcapture' (by rw [hsweep, hstopDrift, hrequest]) hnotDue]
    refine ⟨hjournal, fun hclose => ?_⟩
    rw [State.stopCloseSweep_running hclose] at hsweep harbiter
    exact ⟨congrArg Arbiter.sweep harbiter, congrArg Sweep.job hsweep⟩
  · have hidle' : w.sweep.job = .none := by
      rcases hidle with hnone | hclose
      · rw [State.stopCloseSweep_none (by rw [hnone]; rfl)] at hsweep
        rw [hsweep, hnone]
      · rw [State.stopCloseSweep_running hclose] at hsweep
        rw [hsweep]
    have howedDemand := hd.1
    refine ⟨fun n hn hset hfirst => ?_, fun hnone => ?_⟩
    · have hat := State.afterWindow_driftAt hcapture' hidle' (hdue.mpr hd) hn (kcircuit n ▸ hset)
        fun k hk => kcircuit k ▸ hfirst k hk
      rw [hat]
      refine ⟨?_, ?_, fun hfree => ?_⟩
      · rw [State.runJob_frame]
        simp [State.driftRequested, State.driftBegun, hjournal, howedDemand]
      · rw [State.runJob_frame]
      · have hready : w.arbiter.sweep = none := by
          rw [harbiter]
          cases hclose : s.sweep.job.isCloseSweep with
          | true => rw [State.stopCloseSweep_running hclose]
          | false =>
            rw [State.stopCloseSweep_none hclose]
            exact hfree.resolve_left (by simp [hclose])
        have hentries : (w.circuit n).entries = (s.circuit n).entries := by
          rw [hcircuits]
          split <;> rfl
        have hfirst' : w.connAddr ((w.circuit n).entries.getD 0 0) = s.connAddr ((s.circuit n).entries.getD 0 0) := by
          rw [hentries]
          simp only [State.connAddr, hlayout]
        have hstarts := State.runJob_driftGranted (v := w.driftRequested.driftBegun) n hready
        dsimp only at hstarts
        rw [← hstopPort, ← harbiter, ← hpass, ← hfirst']
        exact hstarts
    · rw [State.afterWindow_driftOver hlist' hcapture' hidle' (hdue.mpr hd) fun k hk => kcircuit k ▸ hnone k hk]
      refine ⟨by rw [hjournal], hidle', fun hclose => ?_⟩
      rw [State.stopCloseSweep_running hclose] at harbiter
      exact congrArg Arbiter.sweep harbiter

end Sys2Proof.Machine
end

section
/-!
The window and the evidence, first part: the ranges of the evidence records (R70, R86, R89), and what it is for an
operation to leave the window where it is.
-/

namespace Sys2Proof.Machine

/-! ### Evidence records (R70 to R74, R85 to R89) -/

/-- R70: a record at its reset values, whatever its silence timer. -/
theorem Evidence.sound_fresh (x : Timer) : ({ silence := x } : Evidence).sound :=
  ⟨Nat.zero_le _, iff_of_true rfl rfl, fun _ => rfl, nofun⟩

theorem clampInt_between (r : Int) : -5000 ≤ clampInt (-5000) 1000 r ∧ clampInt (-5000) 1000 r ≤ 1000 := by
  unfold clampInt
  omega

/-- R88, R89: the smoothed power of a range stays in it. -/
theorem smooth_inRange (k : Nat) {old : Option Int} {r : Int} (hold : ∀ p, old = some p → -5000 ≤ p ∧ p ≤ 1000)
    (hr : -5000 ≤ r ∧ r ≤ 1000) : -5000 ≤ smooth k old r ∧ smooth k old r ≤ 1000 := by
  cases old with
  | none => exact hr
  | some p =>
    have hp := hold p rfl
    have hbetween := smooth_between k p r
    omega

/-- R85 to R87: the power step gives a dark channel no power, and any other one in its range. -/
theorem powerStep_sound (k : Nat) (r : Int) {e : Evidence} (h : e.sound) : (powerStep k r e).sound := by
  obtain ⟨hrun, hcandidate, hdark, hpower⟩ := h
  unfold powerStep
  split
  · exact ⟨hrun, hcandidate, fun _ => rfl, nofun⟩
  split
  · exact ⟨hrun, hcandidate, hdark, hpower⟩
  · refine ⟨hrun, hcandidate, nofun, fun p hp => ?_⟩
    cases hp
    exact smooth_inRange k hpower (clampInt_between r)

/-- R71 to R73: the tag step keeps a run above 0 exactly with a candidate. -/
theorem countTag_sound (a : Arrival) {e : Evidence} (h : e.sound) : (countTag a e).sound := by
  obtain ⟨hrun, hcandidate, hpowers⟩ := h
  unfold countTag
  split
  · exact ⟨Nat.zero_le _, iff_of_true rfl rfl, hpowers⟩
  split
  · exact ⟨Nat.le_of_ble_eq_true rfl, iff_of_false nofun nofun, hpowers⟩
  split
  · rename_i hsame
    refine ⟨Nat.min_le_left _ _, iff_of_false (by simp [hsame]) ?_, hpowers⟩
    simp [Config.runMax]
  · exact ⟨Nat.le_of_ble_eq_true rfl, iff_of_false nofun nofun, hpowers⟩

/-- R71 to R74: so does the test against the persistence, which touches neither. -/
theorem tagStep_sound (persistence : Nat) (a : Arrival) {e : Evidence} (h : e.sound) :
    (tagStep persistence a e).sound := by
  have hcount := countTag_sound a h
  unfold tagStep acceptTag
  split
  · exact hcount
  · exact hcount

variable (s : State) {u v t : State}

/-- R70, R91: the evidence stays sound where each channel's record does, and each circuit's reference power stays or
becomes absent. -/
theorem State.evidenceSound_of_reads (h : u.evidenceSound)
    (he : ∀ ch, (u.evidenceOf ch).sound → (t.evidenceOf ch).sound)
    (hr : ∀ c p, (t.circuit c).reference = some p → (u.circuit c).reference = some p) : t.evidenceSound :=
  ⟨fun ch => he ch (h.1 ch), fun c p hp => h.2 c p (hr c p hp)⟩

/-- R70: one record that becomes another sound one. -/
theorem State.putEvidence_sound (ch : Nat) {e : Evidence} (he : (s.evidenceOf ch).sound → e.sound)
    (h : s.evidenceSound) : (s.putEvidence ch e).evidenceSound := by
  refine State.evidenceSound_of_reads h (fun k hk => ?_) fun _ _ => id
  rw [State.putEvidence_evidenceOf]
  split
  · rename_i hkc
    exact he (hkc ▸ hk)
  · exact hk

theorem State.setSilence_sound (ch : Nat) (x : Timer) (h : s.evidenceSound) : (s.setSilence ch x).evidenceSound :=
  s.putEvidence_sound ch id h

/-- R91: a record whose reference power is the old one, or absent. -/
theorem State.putCircuit_sound (k : Nat) {r : Circuit}
    (hr : ∀ p, r.reference = some p → (s.circuit k).reference = some p) (h : s.evidenceSound) :
    (s.putCircuit k r).evidenceSound := by
  refine State.evidenceSound_of_reads h (fun _ => id) fun c p => ?_
  rw [State.putCircuit_circuit]
  split
  · rename_i hck
    exact fun hp => hck ▸ hr p hp
  · exact id

theorem State.setCircuitState_sound (k : Nat) (st : CircuitState) (h : s.evidenceSound) :
    (s.setCircuitState k st).evidenceSound := by
  refine State.evidenceSound_of_reads h (fun ch => ?_) fun c p => ?_
  · rw [State.setCircuitState_evidenceOf]
    exact id
  · rw [State.setCircuitState_circuit]
    split
    · rename_i hck
      exact fun hp => hck ▸ hp
    · exact id

/-! ### What the window's invariants speak of -/

/-- The items of the part that the window's invariants and the evidence's ranges speak of. -/
structure Watch where
  state : WindowState
  deadline : Timer
  settle : Timer
  layout : Option Layout
  closing : Bool
  verdict : Verdict
  circuits : Table Circuit
  counts : Table Nat
  evidence : Table Evidence

/-- These items of a state. -/
def State.watch (s : State) : Watch :=
  { state := s.window.state, deadline := s.window.deadline, settle := s.window.settle, layout := s.layout
    closing := s.sweep.job.isCloseSweep, verdict := s.verdict, circuits := s.store.circuits
    counts := s.store.counts, evidence := s.trace.evidence }

/-- From `u` to `t` the window stays in its state and the close sweep goes on or stays away, and what holds of the
verdicts, the timers and the evidence holds on. -/
structure Calm (u t : State) : Prop where
  state : t.window.state = u.window.state
  closing : t.sweep.job.isCloseSweep = u.sweep.job.isCloseSweep
  layout : t.layout = u.layout
  verdicts : u.verdictsSettled → t.verdictsSettled
  timers : u.timersAgree → t.timersAgree
  sound : u.evidenceSound → t.evidenceSound

theorem Calm.refl (u : State) : Calm u u := ⟨rfl, rfl, rfl, id, id, id⟩

/-- Read backwards, from the last operation to the first. -/
theorem Calm.after (h' : Calm v t) (h : Calm u v) : Calm u t where
  state := h'.state.trans h.state
  closing := h'.closing.trans h.closing
  layout := h'.layout.trans h.layout
  verdicts hu := h'.verdicts (h.verdicts hu)
  timers hu := h'.timers (h.timers hu)
  sound hu := h'.sound (h.sound hu)

/-- What the invariants say is a matter of the items alone. -/
theorem Calm.of_eq (h : t.watch = u.watch) : Calm u t := by
  have hstate : t.window.state = u.window.state := congrArg Watch.state h
  have hdeadline : t.window.deadline = u.window.deadline := congrArg Watch.deadline h
  have hsettle : t.window.settle = u.window.settle := congrArg Watch.settle h
  have hverdict : t.verdict = u.verdict := congrArg Watch.verdict h
  have hcircuits : t.store.circuits = u.store.circuits := congrArg Watch.circuits h
  have hcounts : t.store.counts = u.store.counts := congrArg Watch.counts h
  have hevidence : t.trace.evidence = u.trace.evidence := congrArg Watch.evidence h
  refine ⟨hstate, congrArg Watch.closing h, congrArg Watch.layout h, ?_, ?_, ?_⟩
  · simp only [State.verdictsSettled, State.count, hstate, hverdict, hcounts, imp_self]
  · simp only [State.timersAgree, State.evidenceOf, hstate, hdeadline, hsettle, hverdict, hevidence, imp_self]
  · simp only [State.evidenceSound, State.evidenceOf, State.circuit, hcircuits, hevidence, imp_self]

theorem Calm.ite {p : Prop} [Decidable p] (ht : p → Calm u t) (hv : ¬ p → Calm u v) : Calm u (if p then t else v) := by
  split
  · exact ht ‹_›
  · exact hv ‹_›

/-- An effect made only on a condition. -/
theorem Calm.ite_self {p : Prop} [Decidable p] (ht : p → Calm u t) : Calm u (if p then t else u) :=
  Calm.ite ht fun _ => Calm.refl u

theorem Calm.ite_self' {p : Prop} [Decidable p] (ht : ¬ p → Calm u t) : Calm u (if p then u else t) :=
  Calm.ite (fun _ => Calm.refl u) ht

theorem Calm.forEach (f : State → Nat → State) (l : List Nat) (h : ∀ v k, Calm u v → Calm v (f v k)) :
    Calm u (u.forEach l f) :=
  State.forEach_induct u (Calm u) f l (fun v k _ hv => (h v k hv).after hv) (Calm.refl u)

theorem Calm.forSome (f : State → Nat → State) (o : Option Nat) (h : ∀ k, Calm u (f u k)) : Calm u (u.forSome o f) := by
  cases o with
  | none => exact Calm.refl u
  | some k => exact h k

/-! ### Marks, circuits and channels -/

theorem State.raise_calm (k : Cause) : Calm s (s.raise k) := Calm.of_eq (by rw [State.raise_frame]; rfl)

theorem State.setWindowFlags_calm (a b : Bool) : Calm s (s.setWindowFlags a b) :=
  Calm.ite_self' fun _ => Calm.of_eq rfl

theorem State.setWindowNumber_calm (n : BitVec 16) : Calm s (s.setWindowNumber n) :=
  Calm.ite_self' fun _ => Calm.of_eq rfl

theorem State.setWorkMember_calm (k : Nat) (b : Bool) : Calm s (s.setWorkMember k b) :=
  Calm.ite_self' fun _ => Calm.of_eq rfl

theorem State.clearWorkSet_calm : Calm s s.clearWorkSet := Calm.ite_self' fun _ => Calm.of_eq rfl

theorem State.wantSummaryIf_calm (b : Bool) : Calm s (s.wantSummaryIf b) := Calm.ite_self fun _ => Calm.of_eq rfl

/-- R91: a circuit's record, its reference power the old one or absent. -/
theorem State.putCircuit_calm (k : Nat) (r : Circuit)
    (hr : ∀ p, r.reference = some p → (s.circuit k).reference = some p) : Calm s (s.putCircuit k r) :=
  ⟨rfl, rfl, rfl, id, id, s.putCircuit_sound k hr⟩

/-- R16: no state but PENDING adds to the count of the PENDING. -/
theorem State.setCircuitState_pending (k : Nat) {st : CircuitState} (hst : st ≠ .pending) (h : s.count .pending = 0) :
    (s.setCircuitState k st).count .pending = 0 := by
  by_cases hsame : (s.circuit k).state = st
  · rw [s.setCircuitState_same k st hsame, h]
  · rw [s.setCircuitState_count k st _ hsame, if_neg hst.symm, h]
    simp

/-- R141, R143: a circuit may take any state but PENDING, and that too where no verdict is settled. -/
theorem State.setCircuitState_calm (k : Nat) (st : CircuitState)
    (hst : st ≠ .pending ∨ (s.window.state ≠ .verifying ∧ s.window.state ≠ .concluded)) :
    Calm s (s.setCircuitState k st) := by
  have hpending : s.window.state = .verifying ∨ s.window.state = .concluded →
      s.count .pending = 0 → (s.setCircuitState k st).count .pending = 0 := fun hw =>
    s.setCircuitState_pending k (hst.resolve_right fun hnot => hw.elim hnot.1 hnot.2)
  have hevidence := s.setCircuitState_evidenceOf k st
  have hsound := s.setCircuitState_sound k st
  obtain ⟨m, ct, owed, wanted, b, hframe⟩ := s.setCircuitState_frame k st
  generalize s.setCircuitState k st = t at *
  have hwindow : t.window = s.window := by rw [hframe]
  have hverdict : t.verdict = s.verdict := by rw [hframe]
  refine ⟨by rw [hwindow], by rw [hframe], by rw [hframe], fun ⟨hsteady, hconcluded⟩ => ?_, ?_, hsound⟩
  · rw [State.verdictsSettled, hwindow, hverdict]
    refine ⟨fun hrun => ?_, fun hw => hpending (.inr hw) (hconcluded hw)⟩
    obtain ⟨hw, hzero⟩ := hsteady hrun
    exact ⟨hw, hpending (.inl hw) hzero⟩
  · simp only [State.timersAgree, hwindow, hverdict, hevidence, imp_self]

/-- R79: a channel's record that becomes another sound one, its silence timer stopped, as it was, or in VERIFYING. -/
theorem State.putEvidence_calm (ch : Nat) (e : Evidence) (he : (s.evidenceOf ch).sound → e.sound)
    (hsilence : s.window.state ≠ .verifying → (s.evidenceOf ch).silence = .stopped → e.silence = .stopped) :
    Calm s (s.putEvidence ch e) := by
  refine ⟨rfl, rfl, rfl, id, fun ⟨hdeadline, hsettle, hstopped, hlimit⟩ => ?_, s.putEvidence_sound ch he⟩
  refine ⟨hdeadline, hsettle, fun hw k => ?_, hlimit⟩
  rw [State.putEvidence_evidenceOf]
  split
  · exact hsilence hw (hstopped hw ch)
  · exact hstopped hw k

theorem State.setSilence_calm (ch : Nat) (x : Timer) (hx : x = .stopped ∨ s.window.state = .verifying) :
    Calm s (s.setSilence ch x) :=
  s.putEvidence_calm ch _ id fun hw _ => hx.resolve_right hw

/-- R80: outside VERIFYING an evidence reset leaves the silence timer stopped. -/
theorem State.resetEvidence_calm (ch : Nat) : Calm s (s.resetEvidence ch) := by
  refine s.putEvidence_calm ch _ (fun _ => Evidence.sound_fresh _) fun hw _ => ?_
  exact if_neg fun h => hw h.1

theorem State.putBinding_calm (ch : Nat) (b : Option Nat) : Calm s (s.putBinding ch b) := Calm.of_eq rfl

theorem State.unbind_calm (ch : Nat) : Calm s (s.unbind ch) :=
  Calm.after (State.setSilence_calm _ ch .stopped (.inl rfl)) (s.putBinding_calm ch none)

theorem State.bumpChanges_calm (k : Nat) : Calm s (s.bumpChanges k) := s.putCircuit_calm k _ fun _ => id

theorem State.retarget_calm (k : Nat) (new : List Nat) : Calm s (s.retarget k new) := by
  rw [State.retarget_frame]
  exact Calm.after (v := s.putCircuit k { s.circuit k with entries := new }) (Calm.of_eq rfl)
    (s.putCircuit_calm k _ fun _ => id)

theorem State.bind_calm (k ch : Nat) : Calm s (s.bind k ch) := by
  refine Calm.ite_self' fun _ => Calm.after (State.resetEvidence_calm _ ch) ?_
  exact Calm.after (State.putCircuit_calm _ k _ fun _ => id) <|
    Calm.after (State.putBinding_calm _ ch _) (Calm.forSome _ _ s.unbind_calm)

theorem State.unlistRestore_calm (k : Nat) : Calm s (s.unlistRestore k) := Calm.ite_self fun _ => Calm.of_eq rfl

theorem State.release_calm (k : Nat) : Calm s (s.release k) := by
  refine Calm.after (State.setCircuitState_calm _ k .empty (.inl nofun)) <|
    Calm.after (State.putCircuit_calm _ k _ nofun) <|
    Calm.after (State.setWorkMember_calm _ k false) <| Calm.after (State.unlistRestore_calm _ k) <|
    Calm.after (Calm.forSome _ _ (State.unbind_calm _)) ?_
  exact Calm.of_eq (by rw [State.unclaimAll_frame]; rfl)

theorem State.setMode_calm (m : Mode) : Calm s (s.setMode m) := by
  by_cases hmode : s.store.mode = m
  · rw [s.setMode_same m hmode]
    exact Calm.refl s
  · obtain ⟨map, hframe, -⟩ := s.setMode_change m hmode
    exact Calm.of_eq (by rw [hframe]; rfl)

end Sys2Proof.Machine
end

section
/-! The window left where it is: the Sweep Engine, the Directive Unit, the journal and the verdicts. -/

namespace Sys2Proof.Machine

variable (s : State)

/-! ### The Sweep Engine's requests and jobs (R119, R120) -/

theorem State.releaseHeldSweep_calm : Calm s s.releaseHeldSweep :=
  Calm.of_eq (by rw [State.releaseHeldSweep_frame]; rfl)

/-- R119: a job taken up in the place of another, neither or both of them a close sweep. -/
theorem State.runJob_calm (j : Job) (hj : s.sweep.job.isCloseSweep = j.isCloseSweep) : Calm s (s.runJob j) := by
  rw [State.runJob_frame]
  exact Calm.of_eq (by simp only [State.watch, hj])

theorem State.endJob_calm (hj : s.sweep.job.isCloseSweep = false) : Calm s s.endJob :=
  Calm.of_eq (by simp only [State.watch, hj, State.endJob]; rfl)

theorem State.setDemand_calm (d : Demand) : Calm s (s.setDemand d) := Calm.of_eq rfl

theorem State.markDriftDue_calm : Calm s s.markDriftDue := Calm.of_eq (by rw [State.markDriftDue_frame]; rfl)

theorem State.driftSweepEnded_calm : Calm s s.driftSweepEnded :=
  Calm.of_eq (by rw [State.driftSweepEnded_frame]; rfl)

theorem State.driftBegun_calm : Calm s s.driftBegun := Calm.of_eq rfl

theorem State.restoring_calm (k : Nat) (rest : List Nat) : Calm s (s.restoring k rest) :=
  Calm.after (State.setCircuitState_calm _ k .restoring (.inl nofun)) (Calm.of_eq rfl)

theorem State.startRestore_calm (hj : s.sweep.job.isCloseSweep = false) : Calm s s.startRestore := by
  cases hlist : s.sweep.restoreList with
  | nil =>
    rw [State.startRestore_nil hlist]
    exact Calm.refl s
  | cons k rest =>
    have hrestoring := s.restoring_calm k rest
    rw [State.startRestore_cons k rest hlist]
    exact Calm.after (State.runJob_calm _ _ (hrestoring.closing.trans hj)) hrestoring

theorem State.startDriftSweep_calm (hj : s.sweep.job.isCloseSweep = false) : Calm s s.startDriftSweep := by
  rw [State.startDriftSweep_eq]
  cases s.nextSettled 0 with
  | some n => exact Calm.after (State.runJob_calm _ _ hj) s.driftBegun_calm
  | none =>
    have hended := Calm.after (State.driftSweepEnded_calm _) s.driftBegun_calm
    exact Calm.after (State.startRestore_calm _ (hended.closing.trans hj)) hended

/-- R119: with a job running none starts, and none of the waiting ones is a close sweep. -/
theorem State.startNextJob_calm : Calm s s.startNextJob := by
  refine Calm.ite_self' fun hnone => ?_
  have hj : s.sweep.job.isCloseSweep = false := by rw [not_not.mp hnone]; rfl
  split
  · exact Calm.after (State.runJob_calm _ _ hj) (Calm.of_eq rfl)
  · exact Calm.ite (fun _ => s.startDriftSweep_calm hj) fun _ => s.startRestore_calm hj

theorem State.requestDriftSweep_calm : Calm s s.requestDriftSweep :=
  Calm.ite_self fun _ => Calm.after (State.startNextJob_calm _) s.markDriftDue_calm

/-! ### The Directive Unit (R152 to R159) -/

theorem State.seekSlot_calm : Calm s s.seekSlot := Calm.of_eq (by rw [State.seekSlot_frame]; rfl)

theorem State.startCompleting_calm (left : List (Nat × Word)) (n : Nat) : Calm s (s.startCompleting left n) :=
  Calm.of_eq (by rw [State.startCompleting_frame]; rfl)

theorem State.answerDirective_calm (a : DirectiveAnswer) : Calm s (s.answerDirective a) :=
  Calm.after (State.startCompleting_calm _ _ _) (Calm.ite_self fun _ => s.raise_calm .refused)

theorem State.setDirectiveStep_calm (st : DirectiveStep) : Calm s (s.setDirectiveStep st) := Calm.of_eq rfl

theorem State.checkChain_calm : Calm s s.checkChain := by
  unfold State.checkChain
  split
  · exact s.answerDirective_calm _
  · exact s.setDirectiveStep_calm _

theorem State.joinChain_calm (slot : List Word) : Calm s (s.joinChain slot) :=
  Calm.ite (fun _ => Calm.after (State.seekSlot_calm _) (Calm.of_eq rfl))
    fun _ => Calm.after (State.checkChain_calm _) (Calm.of_eq rfl)

theorem State.takeFetchedWord_calm (words : List Word) (data : Word) : Calm s (s.takeFetchedWord words data) :=
  Calm.ite (fun _ => Calm.after (State.seekSlot_calm _) (s.setDirectiveStep_calm _)) fun _ =>
    Calm.ite (fun _ => Calm.of_eq rfl) fun _ => s.joinChain_calm _

theorem State.faultFetch_calm (words : List Word) : Calm s (s.faultFetch words) := by
  unfold State.faultFetch
  exact Calm.after (State.startCompleting_calm _ _ _) (Calm.of_eq rfl)

theorem State.endCompletionWrite_calm (left : List (Nat × Word)) (n : Nat) : Calm s (s.endCompletionWrite left n) := by
  unfold State.endCompletionWrite
  split
  · exact Calm.after (State.seekSlot_calm _) (Calm.of_eq rfl)
  · exact s.startCompleting_calm _ _

theorem State.failDirective_calm : Calm s s.failDirective := by
  unfold State.failDirective
  split
  · exact s.faultFetch_calm _
  · exact s.endCompletionWrite_calm _ _
  all_goals exact Calm.refl s

theorem State.completeFetchRead_calm (data : Word) : Calm s (s.completeFetchRead data) := by
  unfold State.completeFetchRead
  split
  · exact Calm.after (State.takeFetchedWord_calm _ _ _) (Calm.of_eq rfl)
  · exact Calm.refl s

theorem State.completeCompletionWrite_calm : Calm s s.completeCompletionWrite := by
  unfold State.completeCompletionWrite
  split
  · exact Calm.after (State.endCompletionWrite_calm _ _ _) (Calm.of_eq rfl)
  · exact Calm.refl s

/-! ### Verdicts and arrivals (R67, R78, R138 to R141) -/

theorem State.oweCircuit_calm (k : Nat) : Calm s (s.oweCircuit k) := Calm.of_eq rfl

/-- R139, R144: a verdict other than PENDING. -/
theorem State.changeVerdict_calm (k : Nat) (st : CircuitState) (cause : Option VerdictCause) (hst : st ≠ .pending) :
    Calm s (s.changeVerdict k st cause) :=
  Calm.after (State.oweCircuit_calm _ k) <| Calm.after (State.setCircuitState_calm _ k st (.inl hst)) <|
    s.putCircuit_calm k _ fun _ => id

theorem State.changeVerdict_sound (k : Nat) (st : CircuitState) (cause : Option VerdictCause) (h : s.evidenceSound) :
    (s.changeVerdict k st cause).evidenceSound :=
  (State.oweCircuit_calm _ k).sound (State.setCircuitState_sound _ k st (s.putCircuit_sound k (fun _ => id) h))

/-- R139: a verdict changes the circuit's record and what follows its state, with marks of the Report Unit. -/
theorem State.changeVerdict_storeReport (k : Nat) (st : CircuitState) (cause : Option VerdictCause) :
    StoreReportOnly s (s.changeVerdict k st cause) := by
  have howe (t : State) : StoreReportOnly t (t.oweCircuit k) := ⟨_, _, rfl⟩
  exact StoreReportOnly.after (howe _) <| StoreReportOnly.after (State.setCircuitState_storeReport _ k st)
    (s.putCircuit_storeReport k _)

/-- R141: in VERIFYING an evaluation leaves the steady timer running only with no circuit PENDING. -/
theorem State.evaluate_calm (k ch : Nat) (hw : s.window.state = .verifying) : Calm s (s.evaluate k ch) := by
  refine Calm.ite_self' fun _ => ?_
  have hsound := s.changeVerdict_sound k (newVerdict (s.circuit k) (s.evidenceOf ch)).1
    (newVerdict (s.circuit k) (s.evidenceOf ch)).2
  obtain ⟨st, rp, hframe⟩ := s.changeVerdict_storeReport k (newVerdict (s.circuit k) (s.evidenceOf ch)).1
    (newVerdict (s.circuit k) (s.evidenceOf ch)).2
  rw [hframe] at hsound ⊢
  refine ⟨rfl, rfl, rfl, fun _ => ⟨fun hrun => ⟨hw, ?_⟩, fun hconcluded => ?_⟩, id, hsound⟩
  · by_contra hpending
    have hstopped : (State.actSteady { s with store := st, report := rp }).verdict.steady = s.verdict.steady.stop :=
      if_neg hpending
    rw [hstopped] at hrun
    cases hrun
  · rw [show (State.actSteady { s with store := st, report := rp }).window.state = .verifying from hw] at hconcluded
    cases hconcluded

theorem State.evaluateHandedOver_calm (k ch : Nat) : Calm s (s.evaluateHandedOver k ch) :=
  Calm.ite_self fun h => s.evaluate_calm k ch h.2

theorem State.applyArrival_calm (k : Nat) (a : Arrival) : Calm s (s.applyArrival k a) := by
  refine Calm.after (State.evaluateHandedOver_calm _ k _) (s.putEvidence_calm _ _ (fun h => ?_) fun hw hstopped => ?_)
  · exact tagStep_sound _ a (powerStep_sound _ a.power h)
  · exact (if_neg fun h => hw h.2.2).trans hstopped

theorem State.expireSilence_calm (ch : Nat) (h : s.timersAgree) : Calm s (s.expireSilence ch) := by
  unfold State.expireSilence
  split
  · rename_i n hrunning
    have hw : s.window.state = .verifying := by
      by_contra hw
      rw [h.2.2.1 hw ch] at hrunning
      cases hrunning
    exact Calm.after (Calm.forSome _ _ fun k => State.evaluateHandedOver_calm _ k ch)
      (s.setSilence_calm ch .expired (.inr hw))
  all_goals exact Calm.refl s

/-! ### The Change Journal (R48 to R62) -/

theorem State.storeRecord_calm (r : ChangeRecord) : Calm s (s.storeRecord r) := by
  have hstored : Calm s (State.wantSummary { s with journal := { s.journal with
      waiting := s.journal.waiting ++ [{ r with seq := s.journal.nextSeq }]
      nextSeq := s.journal.nextSeq + 1 } }) := Calm.of_eq rfl
  exact Calm.after (Calm.ite_self fun _ => State.raise_calm _ .journalHalf) hstored

theorem State.loseCapture_calm (phase : Phase) : Calm s (s.loseCapture phase) := by
  have hflag : Calm s (if s.journal.overrun.isSome then s
      else ((State.wantSummary { s with journal := { s.journal with overrun := some phase } }).raise
        .journalOverrun)) :=
    Calm.ite_self' fun _ => Calm.after (State.raise_calm _ .journalOverrun) (Calm.of_eq rfl)
  have htold (t : State) : Calm t (if phase = .outside then t else t.setWindowFlags true t.window.overtime) :=
    Calm.ite_self' fun _ => t.setWindowFlags_calm _ _
  exact Calm.after (State.requestDriftSweep_calm _) <| Calm.after (State.setDemand_calm _ _) <|
    Calm.after (htold _) hflag

theorem State.capture_calm (index : Nat) (data : Word) (lanes : Lanes) (m : Master) (fenced : Bool) :
    Calm s (s.capture index data lanes m fenced) :=
  Calm.ite (fun _ => s.storeRecord_calm _) fun _ => s.loseCapture_calm _

theorem State.releaseRecord_calm : Calm s s.releaseRecord :=
  Calm.after (State.requestDriftSweep_calm _) (Calm.of_eq rfl)

theorem State.judgeFenced_calm (owner : Option Nat) : Calm s (s.judgeFenced owner) :=
  Calm.after (State.raise_calm _ .fenceHit) <| Calm.forSome _ _ fun k =>
    Calm.after (State.oweCircuit_calm _ k) (s.putCircuit_calm k _ fun _ => id)

/-- R62: row 7 comes with the window OPEN or SETTLING, so that no verdict is settled. -/
theorem State.joinUndeclared_calm (k : Nat) (hw : s.window.state ≠ .verifying ∧ s.window.state ≠ .concluded) :
    Calm s (s.joinUndeclared k) :=
  Calm.after (State.setCircuitState_calm _ k _ (.inr hw)) (s.putCircuit_calm k _ fun _ => id)

theorem State.judgeDrift_calm (k : Nat) : Calm s (s.judgeDrift k) := by
  by_cases hl : (s.circuit k).state = .loading
  · rw [s.judgeDrift_loading k hl]
    exact s.putCircuit_calm k _ fun _ => id
  by_cases hd : (s.circuit k).state = .settled ∨ (s.circuit k).state = .faulted
  · rw [s.judgeDrift_drifts k hd]
    exact Calm.after (State.raise_calm _ _) (s.setCircuitState_calm k _ (.inl nofun))
  by_cases hp : (s.circuit k).state.inWindow = true
      ∧ ((s.circuit k).prior = some .settled ∨ (s.circuit k).prior = some .faulted)
  · rw [s.judgeDrift_demotes k hp.1 hp.2]
    exact Calm.after (State.raise_calm _ _) (s.putCircuit_calm k _ fun _ => id)
  · rw [s.judgeDrift_stays k hl hd hp]
    exact Calm.refl s

theorem State.judgeOwner_calm (k : Classification) (owner : Option Nat)
    (hk : k = .undeclared → s.window.state ≠ .verifying ∧ s.window.state ≠ .concluded) :
    Calm s (s.judgeOwner k owner) := by
  cases k with
  | fenced => exact s.judgeFenced_calm owner
  | stray => exact Calm.refl s
  | declared => exact Calm.forSome _ _ s.bumpChanges_calm
  | undeclared =>
    cases owner with
    | none => exact Calm.refl s
    | some k => exact Calm.ite (fun _ => s.bumpChanges_calm k) fun _ => s.joinUndeclared_calm k (hk rfl)
  | drift => exact Calm.forSome _ _ s.judgeDrift_calm

/-- R58: a record is UNDECLARED only with the window OPEN or SETTLING. -/
theorem classification_undeclared {r : ChangeRecord} {owner : Option Circuit} {w : WindowState}
    (h : classification r owner w = .undeclared) : w = .opened ∨ w = .settling := by
  by_contra hw
  have hnot : duringWindow r.phase w = false := by simp [duringWindow, not_or.mp hw]
  unfold classification at h
  rw [hnot] at h
  split at h
  · cases h
  split at h <;> cases h

theorem State.classified_calm (r : ChangeRecord) (rest : List ChangeRecord) : Calm s (s.classified r rest) := by
  have hjudged : Calm s (s.judgeOwner (s.judgement r) (s.mapEntry r.index).owner) := by
    refine s.judgeOwner_calm _ _ fun h => ?_
    rcases classification_undeclared h with hw | hw <;> simp [hw]
  exact Calm.after (v := s.judgeOwner (s.judgement r) (s.mapEntry r.index).owner) (Calm.of_eq rfl) hjudged

end Sys2Proof.Machine
end

section
/-! The state counts through a change of a circuit's state (R16), and the window's own moves (chapter 6). -/

namespace Sys2Proof.Machine

variable (s : State) {u v t : State}

/-! ### The counts (R16) -/

/-- The numbers below `n` that a test picks, when the test changes at one of them. -/
theorem length_filter_range_change (p q : Nat → Bool) {k n : Nat} (hk : k < n) (h : ∀ j, j ≠ k → q j = p j) :
    ((List.range n).filter q).length + (p k).toNat = ((List.range n).filter p).length + (q k).toNat := by
  induction n with
  | zero => exact absurd hk (Nat.not_lt_zero k)
  | succ n ih =>
    simp only [List.range_succ, List.filter_append, List.length_append]
    by_cases hkn : k = n
    · subst hkn
      have hbelow : (List.range k).filter q = (List.range k).filter p :=
        List.filter_congr fun j hj => h j (List.mem_range.mp hj).ne
      rw [hbelow]
      cases hp : p k <;> cases hq : q k <;> simp [hp, hq]
    · have hlast : q n = p n := h n (Ne.symm hkn)
      have hbelow := ih (by omega)
      simp only [List.filter_cons, hlast, List.filter_nil]
      omega

/-- R16: the counts agree as long as no circuit and no count changes. -/
theorem State.countsAgree_congr (h : u.countsAgree) (hc : ∀ k, (t.circuit k).state = (u.circuit k).state)
    (hn : ∀ x, t.count x = u.count x) : t.countsAgree := fun x => by
  have hwhere : (t.circuitsWhere fun r => r.state = x) = u.circuitsWhere fun r => r.state = x := by
    simp only [State.circuitsWhere, hc]
  rw [hn, h x, hwhere]

theorem State.countsAgree_of_store (h : u.countsAgree) (hs : t.store = u.store) : t.countsAgree :=
  State.countsAgree_congr h (fun k => by rw [State.circuit_of_store hs]) (State.count_of_store hs)

/-- R16: a record in the same state. -/
theorem State.putCircuit_countsAgree (k : Nat) {r : Circuit} (hr : r.state = (s.circuit k).state) (h : s.countsAgree) :
    (s.putCircuit k r).countsAgree := by
  refine State.countsAgree_congr h (fun j => ?_) fun _ => rfl
  rw [State.putCircuit_circuit]
  split
  · rename_i hj
    rw [hr, hj]
  · rfl

/-- R16: a circuit of the part takes a state, and the two counts move with it. -/
theorem State.setCircuitState_countsAgree (k : Nat) (st : CircuitState) (hk : k < 512) (h : s.countsAgree) :
    (s.setCircuitState k st).countsAgree := by
  by_cases hsame : (s.circuit k).state = st
  · rw [s.setCircuitState_same k st hsame]
    exact h
  intro x
  have hchange := length_filter_range_change (fun j => decide ((s.circuit j).state = x))
    (fun j => decide (((s.setCircuitState k st).circuit j).state = x)) hk fun j hj => by
      rw [State.setCircuitState_circuit, if_neg hj]
  have hcount := h x
  simp only [State.setCircuitState_circuit, if_true] at hchange
  rw [s.setCircuitState_count k st x hsame]
  simp only [State.circuitsWhere, State.setCircuitState_circuit, Config.circuits] at hcount ⊢
  by_cases hst : x = st
  · subst hst
    simp only [hsame, decide_false, decide_true, Bool.toNat_true, Bool.toNat_false] at hchange
    rw [if_pos rfl]
    omega
  · simp only [Ne.symm hst, decide_false, Bool.toNat_false] at hchange
    rw [if_neg hst]
    by_cases hold : x = (s.circuit k).state
    · simp only [hold.symm, decide_true, Bool.toNat_true] at hchange
      rw [if_pos hold]
      omega
    · simp only [Ne.symm hold, decide_false, Bool.toNat_false] at hchange
      rw [if_neg hold]
      omega

/-- R16: with no circuit PENDING the count of the PENDING is 0. -/
theorem State.noPending_of_circuits (h : s.countsAgree) (hc : ∀ k, k < 512 → (s.circuit k).state ≠ .pending) :
    s.count .pending = 0 := by
  rw [h .pending, List.length_eq_zero_iff, State.circuitsWhere, List.filter_eq_nil_iff]
  intro k hk
  simpa using hc k (by simpa [Config.circuits] using hk)

/-- R2, R16: a window without circuits has none PENDING. -/
theorem State.noPending_of_noWindow (h : s.countsAgree) (hw : s.windowCircuits = []) : s.count .pending = 0 := by
  refine s.noPending_of_circuits h fun k hk hpending => ?_
  have hmem : k ∈ s.windowCircuits := (State.mem_windowCircuits k).mpr ⟨hk, by rw [hpending]; rfl⟩
  rw [hw] at hmem
  cases hmem

/-- R139, R144: a verdict of a circuit of the part. -/
theorem State.changeVerdict_countsAgree (k : Nat) (st : CircuitState) (cause : Option VerdictCause) (hk : k < 512)
    (h : s.countsAgree) : (s.changeVerdict k st cause).countsAgree :=
  State.countsAgree_of_store (State.setCircuitState_countsAgree _ k st hk (s.putCircuit_countsAgree k (by rfl) h)) rfl

/-! ### The window in order -/

/-- Section 6.1, R79, R106, R109, R141, R143: what every step keeps of the window. -/
def State.windowOrdered (s : State) : Prop := s.windowAgrees ∧ s.verdictsSettled ∧ s.timersAgree

/-- What leaves the window where it is leaves it in order. -/
theorem Calm.ordered (h : Calm u t) (hu : u.windowOrdered) : t.windowOrdered := by
  obtain ⟨hagrees, hverdicts, htimers⟩ := hu
  refine ⟨?_, h.verdicts hverdicts, h.timers htimers⟩
  rw [State.windowAgrees, h.state, h.layout, h.closing]
  exact hagrees

/-- Every timer of the window, of the verdicts and of the channels is stopped (R113). -/
structure State.TimersRest (s : State) : Prop where
  deadline : s.window.deadline = .stopped
  settle : s.window.settle = .stopped
  silence : ∀ ch, (s.evidenceOf ch).silence = .stopped
  limit : s.verdict.limit.running = false
  steady : s.verdict.steady.running = false

/-- R79, R106, R109, R141: outside OPEN, SETTLING and VERIFYING every timer is stopped. -/
theorem State.windowOrdered.timersRest {s : State} (h : s.windowOrdered) (ho : s.window.state ≠ .opened)
    (hs : s.window.state ≠ .settling) (hv : s.window.state ≠ .verifying) : s.TimersRest := by
  obtain ⟨-, ⟨hsteady, -⟩, hdeadline, hsettle, hsilence, hlimit⟩ := h
  exact ⟨hdeadline ho, hsettle hs, hsilence hv, hlimit hv, Bool.eq_false_iff.mpr fun hrun => hv (hsteady hrun).1⟩

/-- R79: what acts on the Circuit Store and the marks alone lets the timers rest. -/
theorem StoreReportOnly.timersRest (h : StoreReportOnly u t) (hu : u.TimersRest) : t.TimersRest := by
  obtain ⟨st, rp, rfl⟩ := h
  exact ⟨hu.deadline, hu.settle, hu.silence, hu.limit, hu.steady⟩

/-- Section 6.1: with every timer stopped, a window with a layout is in order in any state but NO_LAYOUT, in SWEEPING
exactly with a close sweep, and in CONCLUDED with no circuit PENDING. -/
theorem State.TimersRest.ordered {s : State} (h : s.TimersRest) (hn : s.window.state ≠ .noLayout)
    (hl : s.layout ≠ none) (hc : s.window.state = .sweeping ↔ s.sweep.job.isCloseSweep = true)
    (hp : s.window.state = .concluded → s.count .pending = 0) : s.windowOrdered := by
  have hsteady : s.verdict.steady.running ≠ true := by simp [h.steady]
  exact ⟨⟨iff_of_false hn hl, hc⟩, ⟨fun hrun => absurd hrun hsteady, hp⟩,
    fun _ => h.deadline, fun _ => h.settle, fun _ => h.silence, fun _ => h.limit⟩

/-- R98: so is one that is put in such a state, not being in SWEEPING. -/
theorem State.TimersRest.setWindowState {s : State} (h : s.TimersRest) {w : WindowState} (hn : w ≠ .noLayout)
    (hs : w ≠ .sweeping) (hl : s.layout ≠ none) (hc : s.sweep.job.isCloseSweep = false)
    (hp : w = .concluded → s.count .pending = 0) : (s.setWindowState w).windowOrdered := by
  rw [State.setWindowState_frame]
  refine State.TimersRest.ordered ⟨h.deadline, h.settle, h.silence, h.limit, h.steady⟩ hn hl ?_ hp
  exact iff_of_false hs (by simp [hc])

/-- R98, R166: a window state makes no evidence unsound. -/
theorem State.setWindowState_sound (w : WindowState) (h : s.evidenceSound) : (s.setWindowState w).evidenceSound := by
  rw [State.setWindowState_frame]
  exact h

/-! ### Conclusion (R143) -/

theorem State.stopSilence_sound (h : s.evidenceSound) : s.stopSilence.evidenceSound := by
  obtain ⟨ev, hev⟩ := s.stopSilence_some
  refine State.evidenceSound_of_reads h (fun ch hch => ?_) fun c p => ?_
  · rw [State.stopSilence_evidenceOf]
    exact hch
  · rw [hev]
    exact id

theorem State.conclude_sound (h : s.evidenceSound) : s.conclude.evidenceSound :=
  (State.raise_calm _ .concluded).sound (State.setWindowState_sound _ _ (State.stopSilence_sound s.stopVerdictTimers h))

/-- R143: a window in VERIFYING with no circuit PENDING concludes in order. -/
theorem State.conclude_ordered (h : s.windowOrdered) (hw : s.window.state = .verifying) (hp : s.count .pending = 0) :
    s.conclude.windowOrdered := by
  obtain ⟨⟨hlayout, hclosing⟩, -, hdeadline, hsettle, -, -⟩ := h
  obtain ⟨ev, hev⟩ := s.stopVerdictTimers.stopSilence_some
  have hsilence := s.stopVerdictTimers.stopSilence_evidenceOf
  refine (State.raise_calm _ .concluded).ordered (State.TimersRest.setWindowState ?_ nofun nofun ?_ ?_ fun _ => ?_)
  all_goals rw [hev] at hsilence ⊢
  · exact ⟨hdeadline (by simp [hw]), hsettle (by simp [hw]), fun ch => congrArg Evidence.silence (hsilence ch), rfl,
      rfl⟩
  · exact fun hnone => by simp [hlayout.mpr hnone] at hw
  · exact Bool.eq_false_iff.mpr fun hclose => by simp [hclosing.mpr hclose] at hw
  · exact hp

/-! ### The entry to VERIFYING (R135, R136, R148) -/

/-- From `u` to `t` only the Circuit Store, the marks of the Report Unit and the evidence records change. -/
def EvidenceToo (u t : State) : Prop :=
  ∃ st rp ev, t = { u with store := st, report := rp, trace := { u.trace with evidence := ev } }

theorem EvidenceToo.after (h' : EvidenceToo v t) (h : EvidenceToo u v) : EvidenceToo u t := by
  obtain ⟨st, rp, ev, rfl⟩ := h
  obtain ⟨st', rp', ev', rfl⟩ := h'
  exact ⟨st', rp', ev', rfl⟩

theorem StoreReportOnly.evidenceToo (h : StoreReportOnly u t) : EvidenceToo u t := by
  obtain ⟨st, rp, rfl⟩ := h
  exact ⟨_, _, _, rfl⟩

theorem EvidenceToo.forEach (f : State → Nat → State) (h : ∀ v k, EvidenceToo v (f v k)) (l : List Nat) :
    EvidenceToo u (u.forEach l f) :=
  State.forEach_induct u (EvidenceToo u) f l (fun v k _ hv => (h v k).after hv) ⟨_, _, _, rfl⟩

theorem EvidenceToo.forSome (f : State → Nat → State) (h : ∀ k, EvidenceToo u (f u k)) (o : Option Nat) :
    EvidenceToo u (u.forSome o f) := by
  cases o with
  | none => exact ⟨_, _, _, rfl⟩
  | some k => exact h k

/-- R135, R148: the record of a circuit judged afresh, its cause gone, and its report owed where one was held. -/
def State.forgetVerdict (k : Nat) : State :=
  let dropped := s.putCircuit k { s.circuit k with cause := none }
  if (s.circuit k).cause.isSome then dropped.oweCircuit k else dropped

theorem State.pendAfresh_eq (k : Nat) :
    s.pendAfresh k = ((s.forgetVerdict k).setCircuitState k .pending).forSome (s.circuit k).channel
      State.resetEvidence := rfl

theorem State.forgetVerdict_storeReport (k : Nat) : StoreReportOnly s (s.forgetVerdict k) := by
  unfold State.forgetVerdict
  dsimp only
  split <;> exact ⟨_, _, rfl⟩

theorem State.forgetVerdict_store (k : Nat) :
    (s.forgetVerdict k).store = (s.putCircuit k { s.circuit k with cause := none }).store := by
  unfold State.forgetVerdict
  dsimp only
  split <;> rfl

theorem State.pendAfresh_store (k : Nat) :
    (s.pendAfresh k).store = ((s.forgetVerdict k).setCircuitState k .pending).store := by
  rw [State.pendAfresh_eq]
  cases (s.circuit k).channel <;> rfl

theorem State.startVerification_store (k : Nat) :
    (s.startVerification k).store = (s.putCircuit k { s.circuit k with verdictChanges := 0 }).store := by
  unfold State.startVerification
  cases (s.circuit k).channel <;> rfl

theorem State.pendAfresh_evidenceToo (k : Nat) : EvidenceToo s (s.pendAfresh k) :=
  EvidenceToo.after (EvidenceToo.forSome _ (fun _ => ⟨_, _, _, rfl⟩) _)
    (StoreReportOnly.after (State.setCircuitState_storeReport _ k .pending) (s.forgetVerdict_storeReport k)).evidenceToo

theorem State.startVerification_evidenceToo (k : Nat) : EvidenceToo s (s.startVerification k) :=
  EvidenceToo.after (EvidenceToo.forSome _ (fun _ => ⟨_, _, _, rfl⟩) _) (s.putCircuit_storeReport k _).evidenceToo

theorem State.forgetVerdict_sound (k : Nat) (h : s.evidenceSound) : (s.forgetVerdict k).evidenceSound := by
  have hdropped := s.putCircuit_sound k (r := { s.circuit k with cause := none }) (fun _ => id) h
  unfold State.forgetVerdict
  dsimp only
  split
  · exact (State.oweCircuit_calm _ k).sound hdropped
  · exact hdropped

theorem State.pendAfresh_sound (k : Nat) (h : s.evidenceSound) : (s.pendAfresh k).evidenceSound :=
  (Calm.forSome _ _ (State.resetEvidence_calm _)).sound
    (State.setCircuitState_sound _ k .pending (s.forgetVerdict_sound k h))

theorem State.startVerification_sound (k : Nat) (h : s.evidenceSound) : (s.startVerification k).evidenceSound := by
  have hput := s.putCircuit_sound k (r := { s.circuit k with verdictChanges := 0 }) (fun _ => id) h
  unfold State.startVerification
  cases (s.circuit k).channel with
  | none => exact hput
  | some ch => exact State.setSilence_sound _ ch _ hput

theorem State.pendAfresh_countsAgree (k : Nat) (hk : k < 512) (h : s.countsAgree) : (s.pendAfresh k).countsAgree := by
  have hforgot : (s.forgetVerdict k).countsAgree :=
    State.countsAgree_of_store (s.putCircuit_countsAgree k (r := { s.circuit k with cause := none }) rfl h)
      (s.forgetVerdict_store k)
  exact State.countsAgree_of_store (State.setCircuitState_countsAgree _ k .pending hk hforgot) (s.pendAfresh_store k)

theorem State.startVerification_countsAgree (k : Nat) (h : s.countsAgree) : (s.startVerification k).countsAgree :=
  State.countsAgree_of_store (s.putCircuit_countsAgree k (r := { s.circuit k with verdictChanges := 0 }) rfl h)
    (s.startVerification_store k)

/-- R135, R148: the chosen window circuits judged afresh, and every window circuit's verification started. -/
def State.verificationStarted (chosen : Circuit → Bool) : State :=
  let pended := s.forEach (s.circuitsWhere fun r => r.state.inWindow && chosen r) State.pendAfresh
  pended.forEach pended.windowCircuits State.startVerification

/-- R135: the window in VERIFYING, before it is seen whether there is anything to verify (R136). -/
def State.verifying (chosen : Circuit → Bool) : State :=
  State.setWindowState { s.verificationStarted chosen with
    verdict := {
      limit := VerdictTimer.start s.window.verifyLimit
      steady := s.verdict.steady.stop } } .verifying

theorem State.verificationStarted_evidenceToo (chosen : Circuit → Bool) :
    EvidenceToo s (s.verificationStarted chosen) :=
  EvidenceToo.after (EvidenceToo.forEach _ State.startVerification_evidenceToo _)
    (EvidenceToo.forEach _ State.pendAfresh_evidenceToo _)

theorem State.enterVerifying_eq (chosen : Circuit → Bool) :
    s.enterVerifying chosen = (s.verifying chosen).settleEntry := by
  obtain ⟨st, rp, ev, hframe⟩ := s.verificationStarted_evidenceToo chosen
  have hkept : (s.verificationStarted chosen).window = s.window
      ∧ (s.verificationStarted chosen).verdict = s.verdict := by
    rw [hframe]
    exact ⟨rfl, rfl⟩
  unfold State.verifying
  rw [← hkept.1, ← hkept.2]
  unfold State.enterVerifying State.verificationStarted
  dsimp only

theorem State.verificationStarted_sound (chosen : Circuit → Bool) (h : s.evidenceSound) :
    (s.verificationStarted chosen).evidenceSound :=
  State.forEach_induct _ State.evidenceSound _ _ (fun v k _ => v.startVerification_sound k) <|
    State.forEach_induct s State.evidenceSound _ _ (fun v k _ => v.pendAfresh_sound k) h

theorem State.verificationStarted_countsAgree (chosen : Circuit → Bool) (h : s.countsAgree) :
    (s.verificationStarted chosen).countsAgree := by
  refine State.forEach_induct _ State.countsAgree _ _ (fun v k _ => v.startVerification_countsAgree k) <|
    State.forEach_induct s State.countsAgree _ _ (fun v k hk => v.pendAfresh_countsAgree k ?_) h
  simpa [Config.circuits] using (List.mem_filter.mp hk).1

theorem State.verifying_sound (chosen : Circuit → Bool) (h : s.evidenceSound) :
    (s.verifying chosen).evidenceSound := by
  have hstarted := s.verificationStarted_sound chosen h
  unfold State.verifying
  generalize s.verificationStarted chosen = v at *
  exact State.setWindowState_sound _ _ hstarted

theorem State.verifying_countsAgree (chosen : Circuit → Bool) (h : s.countsAgree) :
    (s.verifying chosen).countsAgree := by
  have hstarted := s.verificationStarted_countsAgree chosen h
  unfold State.verifying
  generalize s.verificationStarted chosen = v at *
  rw [State.setWindowState_frame]
  exact State.countsAgree_of_store hstarted rfl

theorem State.verifying_state (chosen : Circuit → Bool) : (s.verifying chosen).window.state = .verifying := by
  unfold State.verifying
  rw [State.setWindowState_state]

theorem State.settleEntry_sound (h : s.evidenceSound) : s.settleEntry.evidenceSound := by
  unfold State.settleEntry
  split
  · exact s.conclude_sound h
  split <;> exact h

theorem State.enterVerifying_sound (chosen : Circuit → Bool) (h : s.evidenceSound) :
    (s.enterVerifying chosen).evidenceSound := by
  rw [s.enterVerifying_eq chosen]
  exact State.settleEntry_sound _ (s.verifying_sound chosen h)

/-- R136: the window in VERIFYING goes on in order, with the steady timer running only with no circuit PENDING, or
concludes. -/
theorem State.settleEntry_ordered (h : s.windowOrdered) (hw : s.window.state = .verifying) (hc : s.countsAgree) :
    s.settleEntry.windowOrdered := by
  unfold State.settleEntry
  split
  · rename_i hnone
    exact s.conclude_ordered h hw (s.noPending_of_noWindow hc hnone)
  split
  · rename_i hzero
    obtain ⟨hagrees, ⟨-, hconcluded⟩, htimers⟩ := h
    exact ⟨hagrees, ⟨fun _ => ⟨hw, hzero⟩, hconcluded⟩, htimers⟩
  · exact h

/-- R125, R148: a window with its timers stopped and no close sweep enters VERIFYING in order. -/
theorem State.enterVerifying_ordered (chosen : Circuit → Bool) (h : s.TimersRest) (hl : s.layout ≠ none)
    (hj : s.sweep.job.isCloseSweep = false) (hc : s.countsAgree) : (s.enterVerifying chosen).windowOrdered := by
  rw [s.enterVerifying_eq chosen]
  refine State.settleEntry_ordered _ ?_ (s.verifying_state chosen) (s.verifying_countsAgree chosen hc)
  obtain ⟨st, rp, ev, hframe⟩ := s.verificationStarted_evidenceToo chosen
  unfold State.verifying
  rw [State.setWindowState_frame, hframe]
  refine ⟨⟨iff_of_false nofun hl, iff_of_false nofun (by simp [hj])⟩, ⟨fun hrun => ?_, nofun⟩,
    fun _ => h.deadline, fun _ => h.settle, fun hw => absurd rfl hw, fun hw => absurd rfl hw⟩
  cases hrun

/-! ### The close sweep (R111, R122 to R125) -/

theorem State.sweepOn_sound (set : List Nat) (low : Nat) (h : s.evidenceSound) : (s.sweepOn set low).evidenceSound := by
  unfold State.sweepOn
  split
  · rw [State.runJob_frame]
    exact h
  · exact State.enterVerifying_sound s.endJob _ h

/-- R122, R125: the close sweep of a window in SWEEPING goes on, or ends in VERIFYING. -/
theorem State.sweepOn_ordered (set : List Nat) (low : Nat) (h : s.TimersRest) (hw : s.window.state = .sweeping)
    (hl : s.layout ≠ none) (hc : s.countsAgree) : (s.sweepOn set low).windowOrdered := by
  unfold State.sweepOn
  split
  · rw [State.runJob_frame]
    refine State.TimersRest.ordered ⟨h.deadline, h.settle, h.silence, h.limit, h.steady⟩ ?_ hl ?_ fun hconcluded => ?_
    · simp [hw]
    · exact iff_of_true hw rfl
    · rw [show s.window.state = .concluded from hconcluded] at hw
      cases hw
  · exact State.enterVerifying_ordered s.endJob _ ⟨h.deadline, h.settle, h.silence, h.limit, h.steady⟩ hl rfl hc

theorem State.enterSweeping_sound (h : s.evidenceSound) : s.enterSweeping.evidenceSound :=
  State.sweepOn_sound _ _ 0 (State.setWindowState_sound _ .sweeping h)

/-- R109, R111: a window in SETTLING enters SWEEPING in order. -/
theorem State.enterSweeping_ordered (h : s.windowOrdered) (hw : s.window.state = .settling) (hc : s.countsAgree) :
    s.enterSweeping.windowOrdered := by
  obtain ⟨⟨hlayout, -⟩, ⟨hsteady, -⟩, hdeadline, -, hsilence, hlimit⟩ := h
  have hverifying : s.window.state ≠ .verifying := by simp [hw]
  have hstopped : s.verdict.steady.running = false := Bool.eq_false_iff.mpr fun hrun => hverifying (hsteady hrun).1
  have hl : s.layout ≠ none := fun hnone => by simp [hlayout.mpr hnone] at hw
  show (s.sweeping.sweepOn s.closeSet 0).windowOrdered
  rw [State.sweeping_frame]
  exact State.sweepOn_ordered _ _ _
    ⟨hdeadline (by simp [hw]), rfl, hsilence hverifying, hlimit hverifying, hstopped⟩ rfl
    hl hc

theorem State.leaveSettlingIfDone_sound (h : s.evidenceSound) : s.leaveSettlingIfDone.evidenceSound := by
  unfold State.leaveSettlingIfDone
  split
  · exact s.enterSweeping_sound h
  · exact h

theorem State.leaveSettlingIfDone_ordered (h : s.windowOrdered) (hc : s.countsAgree) :
    s.leaveSettlingIfDone.windowOrdered := by
  unfold State.leaveSettlingIfDone
  split
  · rename_i hdone
    exact s.enterSweeping_ordered h hdone.1 hc
  · exact h

/-! ### The close and the end of the window (R108, R116) -/

theorem State.closeWindow_sound (h : s.evidenceSound) : s.closeWindow.evidenceSound := by
  have hpended : ∀ l, (s.forEach l fun s c => s.setCircuitState c .pending).evidenceSound := fun l =>
    State.forEach_induct s State.evidenceSound _ l (fun v k _ => v.setCircuitState_sound k .pending) h
  unfold State.closeWindow
  dsimp only
  have hv := hpended (s.circuitsWhere fun r => r.state = .held)
  generalize s.forEach _ _ = v at *
  exact State.setWindowState_sound _ .settling hv

/-- R108: an OPEN window closes in order. -/
theorem State.closeWindow_ordered (h : s.windowOrdered) (hw : s.window.state = .opened) :
    s.closeWindow.windowOrdered := by
  have hpended :
      Calm s (s.forEach (s.circuitsWhere fun r => r.state = .held) fun s c => s.setCircuitState c .pending) :=
    Calm.forEach _ _ fun v k hv => v.setCircuitState_calm k .pending (.inr (by simp [hv.state, hw]))
  obtain ⟨⟨hlayout, hclosing⟩, ⟨hsteady, -⟩, -, -, hsilence, hlimit⟩ := hpended.ordered h
  unfold State.closeWindow
  generalize s.forEach _ _ = v at *
  have hstate : v.window.state = .opened := hpended.state.trans hw
  rw [State.setWindowState_frame]
  refine ⟨⟨iff_of_false nofun fun hnone => ?_, iff_of_false nofun fun hclose => ?_⟩, ⟨fun hrun => ?_, nofun⟩,
    fun _ => rfl, fun hnot => absurd rfl hnot, fun _ => hsilence (by simp [hstate]), fun _ => hlimit (by simp [hstate])⟩
  · simp [hlayout.mpr hnone] at hstate
  · simp [hclosing.mpr hclose] at hstate
  · simp [(hsteady hrun).1] at hstate

end Sys2Proof.Machine
end

section
/-! The window left where it is: the Pass Path, the Memory Arbiter, the Report Unit, the clock and the directives. -/

namespace Sys2Proof.Machine

variable (s : State)

/-! ### Accepting an access (R29 to R44) -/

theorem State.postWrite_calm (a : Access) (data : Word) (lanes : Lanes) : Calm s (s.postWrite a data lanes) :=
  Calm.of_eq rfl

theorem State.answerMaster_calm (m : Master) (r : Response) : Calm s (s.answerMaster m r) := Calm.of_eq rfl

theorem State.setUpStep_calm (st : UpStep) : Calm s (s.setUpStep st) := Calm.of_eq rfl

theorem State.acceptConnection_calm (a : Access) (i : Nat) (data : Word) (lanes : Lanes) :
    Calm s (s.acceptConnection a i data lanes) :=
  Calm.ite (fun _ => Calm.after (State.capture_calm _ i data lanes _ true) (s.answerMaster_calm _ _))
    fun _ => Calm.after (State.capture_calm _ i data lanes _ false) (s.postWrite_calm a data lanes)

theorem State.acceptClosing_calm (a : Access) (ch : Nat) (data : Word) (lanes : Lanes) :
    Calm s (s.acceptClosing a ch data lanes) :=
  Calm.ite (fun _ => Calm.after (State.postWrite_calm _ a data lanes) (Calm.of_eq rfl)) fun _ => s.setUpStep_calm _

theorem State.takeConsumer_calm (v : BitVec 16) : Calm s (s.takeConsumer v) :=
  Calm.ite (fun _ => Calm.after (State.wantSummaryIf_calm _ _) (Calm.of_eq rfl))
    fun _ => Calm.after (State.wantSummaryIf_calm _ _) (Calm.of_eq rfl)

theorem State.assembleLanding_calm (ch w : Nat) (data : Word) (lanes : Lanes) :
    Calm s (s.assembleLanding ch w data lanes) := by
  unfold State.assembleLanding
  generalize Table.set zeroTag s.pass.assembly ch _ = assembly
  exact Calm.of_eq rfl

theorem State.acceptWrite_calm (a : Access) (data : Word) (lanes : Lanes) : Calm s (s.acceptWrite a data lanes) := by
  have hpost := s.postWrite_calm a data lanes
  unfold State.acceptWrite
  split
  · exact s.acceptConnection_calm a _ data lanes
  · exact Calm.ite (fun _ => hpost) fun _ =>
      Calm.ite (fun _ => Calm.after (State.postWrite_calm _ a data lanes) (s.assembleLanding_calm _ _ data lanes))
        fun _ => Calm.ite (fun _ => s.acceptClosing_calm a _ data lanes) fun _ => hpost
  · exact Calm.ite (fun _ => Calm.after (State.postWrite_calm _ a data lanes) (s.takeConsumer_calm _)) fun _ => hpost
  all_goals exact hpost

theorem State.takeAccess_calm (a : Access) : Calm s (s.takeAccess a) := by
  unfold State.takeAccess
  split
  · exact s.setUpStep_calm _
  · exact s.acceptWrite_calm a _ _

theorem State.setLate_calm (m : Master) (late : Bool) : Calm s (s.setLate m late) := Calm.of_eq rfl

theorem State.endLate_calm (m : Master) : Calm s (s.endLate m) := Calm.of_eq rfl

theorem State.present_calm (addr : WordAddr) (op : AccessOp) (m : Master) : Calm s (s.present addr op m) :=
  Calm.ite_self' fun _ => Calm.ite (fun _ => Calm.of_eq rfl) fun _ =>
    Calm.ite (fun _ => Calm.of_eq rfl) fun _ => Calm.after (State.takeAccess_calm _ _) (Calm.of_eq rfl)

theorem State.releaseDrain_calm : Calm s s.releaseDrain := by
  unfold State.releaseDrain
  split
  · exact Calm.ite (fun _ => s.endLate_calm _) fun _ => s.takeAccess_calm _
  all_goals exact Calm.refl s

theorem State.emptyBuffer_calm : Calm s s.emptyBuffer :=
  Calm.after (State.releaseDrain_calm _) <| Calm.after (State.releaseHeldSweep_calm _) (Calm.of_eq rfl)

theorem State.freePort_calm : Calm s s.freePort := Calm.of_eq rfl

theorem State.noteReady_calm (p : Posted) : Calm s (s.noteReady p) := by
  unfold State.noteReady
  split
  · exact Calm.ite_self fun _ => Calm.of_eq rfl
  · exact Calm.refl s

theorem State.completeForwardedWrite_calm : Calm s s.completeForwardedWrite := by
  unfold State.completeForwardedWrite
  split
  · exact Calm.after (State.seekSlot_calm _) <| Calm.after (State.emptyBuffer_calm _) <|
      Calm.after (State.noteReady_calm _ _) s.freePort_calm
  · exact Calm.refl s

theorem State.completeForwardedRead_calm (data : Word) : Calm s (s.completeForwardedRead data) := by
  unfold State.completeForwardedRead
  split
  · exact Calm.ite (fun _ => Calm.of_eq rfl) fun _ => Calm.of_eq rfl
  · exact Calm.refl s

/-- R75: the gap flag that the end of a hold sets is no part of a record's ranges. -/
theorem State.expireHold_calm : Calm s s.expireHold := by
  unfold State.expireHold
  split
  · split
    · exact Calm.after (State.postWrite_calm _ _ _ _) (s.putEvidence_calm _ _ id fun _ => id)
    · exact Calm.refl s
  all_goals exact Calm.refl s

theorem State.endHold_calm : Calm s s.endHold := by
  unfold State.endHold
  split
  · split
    · exact s.acceptClosing_calm _ _ _ _
    · exact Calm.refl s
  all_goals exact Calm.refl s

theorem State.consumeArrival_calm : Calm s s.consumeArrival := by
  unfold State.consumeArrival
  split
  · exact Calm.refl s
  · exact Calm.after (State.endHold_calm _) <|
      Calm.after (Calm.forSome _ _ fun k => State.applyArrival_calm _ k _) (Calm.of_eq rfl)

/-! ### The Memory Arbiter (R40 to R46) -/

theorem State.grantPort_calm : Calm s s.grantPort := by
  have hinternal : ∀ who r, Calm s (s.grantInternal who r) := fun who r => by
    cases who <;> exact Calm.of_eq rfl
  unfold State.grantPort
  split
  · exact Calm.refl s
  · split
    · exact Calm.ite (fun _ => Calm.of_eq rfl) fun _ => hinternal _ _
    · exact Calm.of_eq rfl
    · exact hinternal _ _
    · exact Calm.refl s

theorem State.writeFault_calm (addr : Nat) (kind : FaultKind) (m : Master) : Calm s (s.writeFault addr kind m) :=
  Calm.of_eq rfl

theorem State.failForwarded_calm : Calm s s.failForwarded := by
  unfold State.failForwarded
  split
  · exact Calm.after (State.emptyBuffer_calm _) <| Calm.after (State.setLate_calm _ _ true) <|
      Calm.after (State.raise_calm _ .busFault) (s.writeFault_calm _ _ _)
  · exact Calm.after (State.answerMaster_calm _ _ _) <|
      Calm.after (State.raise_calm _ .busFault) (s.writeFault_calm _ _ _)
  · exact Calm.refl s

theorem State.retry_calm (who : Requester) (r : Request) : Calm s (s.retry who r) := by
  cases who <;> exact Calm.of_eq rfl

/-! ### The Report Unit (R165 to R169) -/

theorem State.setWriter_calm (w : ReportWriter) : Calm s (s.setWriter w) := Calm.of_eq rfl

theorem State.setSummary_calm (w : SummaryWriter) : Calm s (s.setSummary w) := Calm.of_eq rfl

theorem State.requestReport_calm (addr : Nat) (w : Word) : Calm s (s.requestReport addr w) := Calm.of_eq rfl

theorem State.owesAgain_calm (item : RecordItem) : Calm s (s.owesAgain item) := by
  cases item with
  | window => exact Calm.of_eq rfl
  | circuit k hits => exact Calm.after (State.oweCircuit_calm _ k) (s.putCircuit_calm k _ fun _ => id)
  | change => exact Calm.refl s

theorem State.failReport_calm : Calm s s.failReport := by
  unfold State.failReport
  split
  · exact Calm.after (State.setWriter_calm _ _) (Calm.ite_self' fun _ => s.owesAgain_calm _)
  · exact Calm.of_eq rfl
  · exact Calm.refl s

theorem State.startReport_calm : Calm s s.startReport := by
  refine Calm.ite_self fun _ => Calm.ite (fun _ => Calm.of_eq rfl) fun _ => ?_
  split
  · exact Calm.of_eq rfl
  split
  · rename_i k _
    have htaken : Calm s { s with report := { s.report with
        owed := Table.set false s.report.owed k false, lastReported := k } } := Calm.of_eq rfl
    have hstart (v : State) (item : RecordItem) (words : List Word) : Calm v (v.startRecord item words) :=
      Calm.of_eq rfl
    exact Calm.after (hstart _ _ _) <| Calm.after (State.putCircuit_calm _ k _ fun _ => id) htaken
  · exact Calm.refl s

theorem State.finishRecord_calm (item : RecordItem) (overtaken : Bool) : Calm s (s.finishRecord item overtaken) := by
  refine Calm.ite (fun _ => s.setWriter_calm .idle) fun _ => ?_
  cases item with
  | window | circuit => exact Calm.of_eq rfl
  | change => exact Calm.after (State.releaseRecord_calm _) (Calm.of_eq rfl)

theorem State.completeReportWord_calm : Calm s s.completeReportWord := by
  unfold State.completeReportWord
  split
  · unfold State.endRecordWord
    split
    · exact Calm.after (State.finishRecord_calm _ _ _) s.freePort_calm
    · exact Calm.of_eq rfl
  · exact Calm.refl s

theorem State.completeSummaryWord_calm : Calm s s.completeSummaryWord := by
  unfold State.completeSummaryWord
  split
  · rename_i base left snapshot _ _
    have hseen : Calm s
        (if (left.head?.map Prod.fst) = some 2 then s.freePort.seeSnapshot snapshot else s.freePort) :=
      Calm.after (Calm.ite_self fun _ => Calm.of_eq rfl) s.freePort_calm
    unfold State.endSummaryWord
    dsimp only
    split
    · exact Calm.after (State.setSummary_calm _ _) hseen
    · exact Calm.after (State.requestReport_calm _ _ _) (Calm.after (State.setSummary_calm _ _) hseen)
  · exact Calm.refl s

theorem State.endReportHoldOff_calm : Calm s s.endReportHoldOff := by
  unfold State.endReportHoldOff
  split
  · exact s.setWriter_calm .idle
  all_goals exact Calm.refl s

theorem State.endSummaryHoldOff_calm : Calm s s.endSummaryHoldOff := by
  unfold State.endSummaryHoldOff
  split
  · exact Calm.of_eq rfl
  all_goals exact Calm.refl s

/-- R168: the start of a summary rewrite is a matter of the Report Unit. -/
theorem State.endEvent_calm : Calm s s.endEvent := Calm.of_eq (by rw [State.endEvent_frame]; rfl)

/-! ### The clock (section 0.6) -/

theorem Timer.fall_eq_stopped {x : Timer} (h : x = .stopped) : x.fall = .stopped := by
  subst h
  rfl

/-- R133: a tick neither starts nor stops a timer of the Verdict Unit. -/
theorem VerdictTimer.fall_running (x : VerdictTimer) : x.fall.running = x.running := by
  unfold VerdictTimer.fall
  split <;> rfl

theorem State.tick_evidenceOf (ch : Nat) :
    s.tick.evidenceOf ch = { s.evidenceOf ch with silence := (s.evidenceOf ch).silence.fall } :=
  Table.get_map ({} : Evidence) (fun e : Evidence => { e with silence := e.silence.fall }) rfl s.trace.evidence ch

theorem State.tick_calm : Calm s s.tick := by
  refine ⟨rfl, rfl, rfl, fun ⟨hsteady, hconcluded⟩ => ⟨fun hrun => hsteady ?_, hconcluded⟩, ?_, fun h => ?_⟩
  · rwa [← VerdictTimer.fall_running]
  · rintro ⟨hdeadline, hsettle, hsilence, hlimit⟩
    refine ⟨fun hw => Timer.fall_eq_stopped (hdeadline hw), fun hw => Timer.fall_eq_stopped (hsettle hw),
      fun hw ch => ?_, fun hw => (VerdictTimer.fall_running _).trans (hlimit hw)⟩
    rw [State.tick_evidenceOf]
    exact Timer.fall_eq_stopped (hsilence hw ch)
  · refine State.evidenceSound_of_reads h (fun ch hch => ?_) fun _ _ => id
    rw [State.tick_evidenceOf]
    exact hch

theorem State.passPeriod_calm : Calm s s.passPeriod :=
  Calm.ite_self' fun _ => Calm.ite (fun _ => Calm.of_eq rfl) fun _ => Calm.after (State.tick_calm _) (Calm.of_eq rfl)

/-! ### Captures, drift sweeps and restores (R121, R126 to R131) -/

theorem State.finishCapture_calm (k : Nat) (hj : s.sweep.job.isCloseSweep = false) : Calm s (s.finishCapture k) := by
  have hjudged : Calm s (s.captureJudged k) := by
    refine Calm.after (State.oweCircuit_calm _ k) <|
      Calm.after (State.setCircuitState_calm _ k _ (.inl ?_)) (s.putCircuit_calm k _ fun _ => id)
    split <;> exact nofun
  exact Calm.after (State.startNextJob_calm _) <| Calm.after (State.answerDirective_calm _ _) <|
    Calm.after (State.endJob_calm _ (hjudged.closing.trans hj)) hjudged

theorem State.failCapture_calm (k p : Nat) (hj : s.sweep.job.isCloseSweep = false) : Calm s (s.failCapture k p) :=
  Calm.after (State.startNextJob_calm _) <| Calm.after (State.answerDirective_calm _ _) <|
    Calm.after (State.endJob_calm _ ((s.release_calm k).closing.trans hj)) (s.release_calm k)

theorem State.takeCaptureWord_calm (k p : Nat) (data : Word) (hj : s.sweep.job.isCloseSweep = false) :
    Calm s (s.takeCaptureWord k p data) := by
  have hkept : Calm s (s.mapCircuit k fun r => { r with baseline := some (r.baseline.getD [] ++ [data]) }) :=
    s.putCircuit_calm k _ fun _ => id
  exact Calm.ite (fun _ => Calm.after (State.runJob_calm _ _ hj) hkept)
    fun _ => Calm.after (State.finishCapture_calm _ k hj) hkept

theorem State.completeCaptureRead_calm (data : Word) : Calm s (s.completeCaptureRead data) := by
  unfold State.completeCaptureRead
  split
  · rename_i k p _ hjob
    have hj : s.freePort.sweep.job.isCloseSweep = false := by
      rw [State.freePort_sweep, hjob]
      rfl
    exact Calm.ite_self' fun _ => Calm.after (State.takeCaptureWord_calm _ k p data hj) s.freePort_calm
  · exact Calm.refl s

theorem State.driftSettled_calm (k : Nat) : Calm s (s.driftSettled k) :=
  Calm.ite_self fun _ => Calm.after (State.raise_calm _ .drift) (s.setCircuitState_calm k .drifted (.inl nofun))

theorem State.driftOn_calm (low : Nat) (hj : s.sweep.job.isCloseSweep = false) : Calm s (s.driftOn low) := by
  unfold State.driftOn
  split
  · exact s.runJob_calm _ hj
  · exact Calm.after (State.startNextJob_calm _) <| Calm.after (State.driftSweepEnded_calm _) (s.endJob_calm hj)

theorem State.takeDriftWord_calm (k p : Nat) (data : Word) (hj : s.sweep.job.isCloseSweep = false) :
    Calm s (s.takeDriftWord k p data) :=
  Calm.ite (fun _ => s.driftOn_calm _ hj) fun _ =>
    Calm.ite (fun _ => Calm.after (State.driftOn_calm _ _ ((s.driftSettled_calm k).closing.trans hj))
      (s.driftSettled_calm k)) fun _ =>
      Calm.ite (fun _ => s.runJob_calm _ hj) fun _ => s.driftOn_calm _ hj

theorem State.completeDriftSweepRead_calm (data : Word) : Calm s (s.completeDriftSweepRead data) := by
  unfold State.completeDriftSweepRead
  split
  · rename_i k p _ hjob
    have hj : s.freePort.sweep.job.isCloseSweep = false := by
      rw [State.freePort_sweep, hjob]
      rfl
    exact Calm.ite_self' fun _ => Calm.after (State.takeDriftWord_calm _ k p data hj) s.freePort_calm
  · exact Calm.refl s

theorem State.finishRestore_calm (k : Nat) (st : CircuitState) (o : RestoreOutcome) (cause : Option VerdictCause)
    (hst : st ≠ .pending) (hj : s.sweep.job.isCloseSweep = false) : Calm s (s.finishRestore k st o cause) := by
  have hrestored : Calm s ((((s.mapCircuit k fun r =>
      { r with restoreOutcome := some o, cause }).setCircuitState k st).oweCircuit k).raise .restoreDone) :=
    Calm.after (State.raise_calm _ .restoreDone) <| Calm.after (State.oweCircuit_calm _ k) <|
      Calm.after (State.setCircuitState_calm _ k st (.inl hst)) (s.putCircuit_calm k _ fun _ => id)
  exact Calm.after (State.startNextJob_calm _) <|
    Calm.after (State.endJob_calm _ (hrestored.closing.trans hj)) hrestored

theorem State.completeRestoreWrite_calm : Calm s s.completeRestoreWrite := by
  unfold State.completeRestoreWrite
  split
  · rename_i k p earlier _ hjob
    have hj : s.freePort.sweep.job.isCloseSweep = false := by
      rw [State.freePort_sweep, hjob]
      rfl
    exact Calm.ite_self' fun _ =>
      Calm.ite (fun _ => Calm.after (State.runJob_calm _ _ hj) s.freePort_calm)
        fun _ => Calm.after (State.finishRestore_calm _ k _ _ _ nofun hj) s.freePort_calm
  · exact Calm.refl s

/-! ### The directives that leave the window where it is -/

theorem State.takeParameters_calm (k : Nat) (f : LoadFields) : Calm s (s.mapCircuit k fun r => r.takeParameters f) :=
  s.putCircuit_calm k _ fun _ => id

theorem State.loadInQuiet_calm (f : LoadFields) : Calm s (s.loadInQuiet f) := by
  have hasked (v : State) : Calm v { v with sweep := { v.sweep with captureRequest := some f.circuit } } :=
    Calm.of_eq rfl
  unfold State.loadInQuiet
  dsimp only
  exact Calm.after (State.startNextJob_calm _) <| Calm.after (hasked _) <|
    Calm.after (State.setCircuitState_calm _ _ .loading (.inl nofun)) <|
    Calm.after (State.putCircuit_calm _ _ _ fun _ => id) <| Calm.after (State.bind_calm _ _ _) <|
    Calm.after (State.retarget_calm _ _ _) <| Calm.after (State.takeParameters_calm _ _ f) (s.unlistRestore_calm _)

theorem State.loadEmptyInOpen_calm (f : LoadFields) : Calm s (s.loadEmptyInOpen f) := by
  unfold State.loadEmptyInOpen
  dsimp only
  exact Calm.after (State.setWorkMember_calm _ _ _) <|
    Calm.after (State.setCircuitState_calm _ _ .held (.inl nofun)) <|
    Calm.after (State.putCircuit_calm _ _ _ nofun) <| Calm.after (State.bind_calm _ _ _) <|
    Calm.after (State.retarget_calm _ _ _) (s.takeParameters_calm _ f)

theorem State.loadHeldInOpen_calm (f : LoadFields) : Calm s (s.loadHeldInOpen f) := by
  have htaken := s.takeParameters_calm f.circuit f
  have hlisted : Calm s (if (s.circuit f.circuit).entries = f.entries then
        s.mapCircuit f.circuit fun r => r.takeParameters f
      else (State.retarget (s.mapCircuit f.circuit fun r => r.takeParameters f) f.circuit
        f.entries).mapCircuit f.circuit fun r => { r with baseline := none, redeclared := true }) :=
    Calm.ite (fun _ => htaken) fun _ =>
      Calm.after (State.putCircuit_calm _ _ _ fun _ => id) (Calm.after (State.retarget_calm _ _ _) htaken)
  exact Calm.after (Calm.ite_self' fun _ =>
    Calm.after (State.putCircuit_calm _ _ _ nofun) (State.bind_calm _ _ _)) hlisted

theorem State.executeLoad_calm (f : LoadFields) : Calm s (s.executeLoad f) :=
  Calm.ite (fun _ => Calm.after (State.setDirectiveStep_calm _ _) (s.loadInQuiet_calm f)) fun _ =>
    Calm.after (State.answerDirective_calm _ _) <| Calm.after (State.oweCircuit_calm _ _) <|
      Calm.ite (fun _ => s.loadEmptyInOpen_calm f) fun _ => s.loadHeldInOpen_calm f

theorem State.runLoad_calm : Calm s s.runLoad := by
  refine Calm.ite_self fun _ => ?_
  split
  · exact s.answerDirective_calm _
  · exact s.executeLoad_calm _

theorem State.acceptPolicy_calm : Calm s s.acceptPolicy := by
  have henables (v : State) (x : BitVec 9) : Calm v { v with report := { v.report with enables := x } } :=
    Calm.of_eq rfl
  exact Calm.after (henables _ _) (s.setMode_calm _)

theorem State.acceptDrop_calm : Calm s s.acceptDrop := Calm.ite_self' fun _ => s.release_calm _

theorem State.holdNamed_calm (k : Nat) : Calm s (s.holdNamed k) := by
  unfold State.holdNamed
  dsimp only
  split
  · exact Calm.after (State.setCircuitState_calm _ k .held (.inl nofun)) <|
      Calm.after (State.putCircuit_calm _ k _ fun _ => id) (s.setWorkMember_calm k true)
  · exact s.setWorkMember_calm k true

theorem State.markNamed_calm (k : Nat) : Calm s (s.markNamed k) :=
  Calm.ite (fun _ => Calm.after (State.holdNamed_calm _ k) (s.putCircuit_calm k _ fun _ => id))
    fun _ => s.holdNamed_calm k

theorem State.acceptMark_calm : Calm s s.acceptMark := Calm.forEach _ _ fun v k _ => v.markNamed_calm k

theorem State.acceptRestore_calm : Calm s s.acceptRestore :=
  Calm.after (State.startNextJob_calm _) (Calm.of_eq rfl)

/-- R91, R102: the reference power that an OPEN captures is a smoothed power of a sound record. -/
theorem State.captureEntry_sound (k : Nat) (h : s.evidenceSound) : (s.captureEntry k).evidenceSound := by
  refine ⟨h.1, fun c p => ?_⟩
  unfold State.captureEntry
  dsimp only
  rw [State.putCircuit_circuit]
  split
  · cases (s.circuit k).channel with
    | none => exact nofun
    | some ch => exact fun hp => (h.1 ch).2.2.2 p hp
  · exact h.2 c p

theorem State.captureEntry_calm (k : Nat) : Calm s (s.captureEntry k) :=
  ⟨rfl, rfl, rfl, id, id, s.captureEntry_sound k⟩

theorem State.overtakeRecord_calm : Calm s s.overtakeRecord := by
  unfold State.overtakeRecord
  split
  · exact Calm.after (State.setWriter_calm _ _) (s.owesAgain_calm _)
  all_goals exact Calm.refl s

end Sys2Proof.Machine
end

section
/-! Settles O55 and O57: the window in order and the evidence sound, through every command and the clock. -/

namespace Sys2Proof.Machine

variable (s : State) {v t : State}

/-- From `s` to `t` the window stays in order, and the evidence sound. -/
structure WindowKept (s t : State) : Prop where
  ordered : s.numbersInRange → s.countsAgree → s.windowOrdered → t.windowOrdered
  sound : s.evidenceSound → t.evidenceSound

theorem Calm.kept {s : State} (h : Calm s t) : WindowKept s t := ⟨fun _ _ => h.ordered, h.sound⟩

/-- A window kept in order and then left where it is. -/
theorem WindowKept.then_calm {s : State} (h : WindowKept s v) (h' : Calm v t) : WindowKept s t :=
  ⟨fun hn hc ho => h'.ordered (h.ordered hn hc ho), fun hs => h'.sound (h.sound hs)⟩

/-! ### The classifier (R57 to R64) -/

theorem State.judgeDrift_countsAgree (k : Nat) (hk : k < 512) (h : s.countsAgree) : (s.judgeDrift k).countsAgree := by
  by_cases hl : (s.circuit k).state = .loading
  · rw [s.judgeDrift_loading k hl]
    exact s.putCircuit_countsAgree k (by rfl) h
  by_cases hd : (s.circuit k).state = .settled ∨ (s.circuit k).state = .faulted
  · rw [s.judgeDrift_drifts k hd]
    exact State.countsAgree_of_store (s.setCircuitState_countsAgree k .drifted hk h) (State.raise_store _ _)
  by_cases hp : (s.circuit k).state.inWindow = true
      ∧ ((s.circuit k).prior = some .settled ∨ (s.circuit k).prior = some .faulted)
  · rw [s.judgeDrift_demotes k hp.1 hp.2]
    exact State.countsAgree_of_store
      (s.putCircuit_countsAgree k (r := { s.circuit k with prior := some .drifted }) rfl h) (State.raise_store _ _)
  · rw [s.judgeDrift_stays k hl hd hp]
    exact h

/-- R59 to R62: the counts agree on after an effect on an owner of the part. -/
theorem State.judgeOwner_countsAgree (k : Classification) (owner : Option Nat) (ho : ∀ c, owner = some c → c < 512)
    (h : s.countsAgree) : (s.judgeOwner k owner).countsAgree := by
  cases owner with
  | none => cases k with
    | fenced => exact State.countsAgree_of_store h (State.raise_store _ _)
    | declared | undeclared | drift | stray => exact h
  | some c => cases k with
    | fenced =>
      exact State.countsAgree_of_store (s.putCircuit_countsAgree c
        (r := { s.circuit c with fenceHits := bump (s.circuit c).fenceHits }) rfl h) (State.raise_store _ _)
    | stray => exact h
    | declared => exact s.putCircuit_countsAgree c (by rfl) h
    | undeclared =>
      show (if (s.circuit c).state.inWindow then s.bumpChanges c else s.joinUndeclared c).countsAgree
      split
      · exact s.putCircuit_countsAgree c (by rfl) h
      · exact State.setCircuitState_countsAgree _ c _ (ho c rfl) (s.putCircuit_countsAgree c (by rfl) h)
    | drift => exact s.judgeDrift_countsAgree c (ho c rfl) h

theorem State.classifyNext_kept : WindowKept s s.classifyNext := by
  cases hwait : s.journal.waiting with
  | nil =>
    have hnone : s.classifyNext = s := by simp [State.classifyNext, hwait]
    rw [hnone]
    exact (Calm.refl s).kept
  | cons r rest =>
    have hcalm := s.classified_calm r rest
    rw [State.classifyNext_eq hwait]
    split
    · refine ⟨fun hn hc ho => State.leaveSettlingIfDone_ordered _ (hcalm.ordered ho) ?_, fun hs =>
        State.leaveSettlingIfDone_sound _ (hcalm.sound hs)⟩
      exact State.countsAgree_of_store (s.judgeOwner_countsAgree _ _ (hn.1 r.index) hc) rfl
    · exact hcalm.kept

/-! ### The expiries (R78, R107, R110, R142, R144) -/

theorem State.expireSilence_kept (ch : Nat) : WindowKept s (s.expireSilence ch) := by
  refine ⟨fun _ _ ho => (s.expireSilence_calm ch ho.2.2).ordered ho, fun hs => ?_⟩
  unfold State.expireSilence
  split
  · exact (Calm.forSome _ _ fun k => State.evaluateHandedOver_calm _ k ch).sound (s.setSilence_sound ch .expired hs)
  all_goals exact hs

theorem State.expireDeadline_kept : WindowKept s s.expireDeadline := by
  unfold State.expireDeadline
  split
  · rename_i hw _
    have hcalm : Calm s ((s.setWindowFlags s.window.overrun true).raise .overtime) :=
      Calm.after (State.raise_calm _ .overtime) (s.setWindowFlags_calm _ _)
    exact ⟨fun _ _ ho => State.closeWindow_ordered _ (hcalm.ordered ho) (hcalm.state.trans hw),
      fun hs => State.closeWindow_sound _ (hcalm.sound hs)⟩
  · exact (Calm.refl s).kept

/-- R110: a settle timer that has expired is no fault in SETTLING. -/
theorem State.settleExpired_calm (hw : s.window.state = .settling) :
    Calm s { s with window := { s.window with settle := .expired } } :=
  ⟨rfl, rfl, rfl, id, fun ⟨hd, _, hs, hl⟩ => ⟨hd, fun hnot => absurd hw hnot, hs, hl⟩, id⟩

theorem State.expireSettle_kept : WindowKept s s.expireSettle := by
  unfold State.expireSettle
  split
  · rename_i hw _
    have hcalm := s.settleExpired_calm hw
    exact ⟨fun _ hc ho => State.leaveSettlingIfDone_ordered _ (hcalm.ordered ho) hc,
      fun hs => State.leaveSettlingIfDone_sound _ (hcalm.sound hs)⟩
  · exact (Calm.refl s).kept

/-- R133: a timer of the Verdict Unit that stops is no fault. -/
theorem State.stopped_calm (limit steady : VerdictTimer) (hl : limit.running = true → s.verdict.limit.running = true)
    (hs : steady.running = true → s.verdict.steady.running = true) :
    Calm s { s with verdict := { limit, steady } } := by
  refine ⟨rfl, rfl, rfl, fun ⟨hsteady, hconcluded⟩ => ⟨fun hrun => hsteady (hs hrun), hconcluded⟩, ?_, id⟩
  rintro ⟨hdeadline, hsettle, hsilence, hlimit⟩
  refine ⟨hdeadline, hsettle, hsilence, fun hw => Bool.eq_false_iff.mpr fun hrun => ?_⟩
  have hstopped := hlimit hw
  rw [hl hrun] at hstopped
  cases hstopped

theorem State.expireSteady_kept : WindowKept s s.expireSteady := by
  unfold State.expireSteady
  split
  · rename_i hrun
    have hcalm := s.stopped_calm s.verdict.limit VerdictTimer.expire id nofun
    exact ⟨fun _ _ ho => State.conclude_ordered _ (hcalm.ordered ho) hrun.1 (ho.2.1.1 hrun.2).2,
      fun hs => State.conclude_sound _ (hcalm.sound hs)⟩
  · exact (Calm.refl s).kept

/-- R144: every PENDING circuit silenced for want of evidence. -/
def State.pendingSilenced : State :=
  s.forEach (s.circuitsWhere fun r => r.state = .pending) fun s c => s.changeVerdict c .silent (some .noEvidence)

theorem State.pendingSilenced_calm : Calm s s.pendingSilenced :=
  Calm.forEach _ _ fun v k _ => v.changeVerdict_calm k .silent _ nofun

/-- R144: then no circuit is PENDING. -/
theorem State.pendingSilenced_noPending (h : s.countsAgree) : s.pendingSilenced.count .pending = 0 := by
  have hcounts : s.pendingSilenced.countsAgree :=
    State.forEach_induct s State.countsAgree _ _ (fun v k hk hv => v.changeVerdict_countsAgree k .silent _
      (by simpa [Config.circuits] using (List.mem_filter.mp hk).1) hv) h
  have hcircuit := State.forEach_circuit (s := s) (fun s c => s.changeVerdict c .silent (some .noEvidence))
    (fun r => { r with state := .silent, cause := some .noEvidence, verdictChanges := bump r.verdictChanges })
    (fun v c k => v.changeVerdict_circuit c .silent _ k) (s.circuitsWhere fun r => r.state = .pending)
    (List.nodup_range.filter _)
  refine State.noPending_of_circuits _ hcounts fun k hk => ?_
  rw [State.pendingSilenced, hcircuit]
  split
  · exact nofun
  · rename_i hmem
    simpa [State.circuitsWhere, Config.circuits, hk] using hmem

/-- R144: the verify limit's expiry silences what is PENDING, and concludes. -/
theorem State.expireVerifyLimit_eq (hw : s.window.state = .verifying ∧ s.verdict.limit.running = true) :
    s.expireVerifyLimit = State.conclude { s.pendingSilenced with
      verdict := { s.pendingSilenced.verdict with limit := VerdictTimer.expire } } := by
  unfold State.expireVerifyLimit State.pendingSilenced
  rw [if_pos hw]

theorem State.expireVerifyLimit_kept : WindowKept s s.expireVerifyLimit := by
  by_cases hrun : s.window.state = .verifying ∧ s.verdict.limit.running = true
  · have hsilenced := s.pendingSilenced_calm
    have hpending := s.pendingSilenced_noPending
    rw [s.expireVerifyLimit_eq hrun]
    generalize s.pendingSilenced = v at *
    have hcalm := Calm.after (v.stopped_calm VerdictTimer.expire v.verdict.steady nofun id) hsilenced
    exact ⟨fun _ hc ho => State.conclude_ordered _ (hcalm.ordered ho) (hcalm.state.trans hrun.1) (hpending hc),
      fun hs => State.conclude_sound _ (hcalm.sound hs)⟩
  · unfold State.expireVerifyLimit
    rw [if_neg hrun]
    exact (Calm.refl s).kept

/-! ### The close sweep (R122 to R125) -/

theorem State.recordUnreadable_calm (k : Nat) : Calm s (s.recordUnreadable k) :=
  Calm.ite
    (fun _ => Calm.after (State.setCircuitState_calm _ k .broken (.inl nofun)) <|
      Calm.after (State.oweCircuit_calm _ k) (s.putCircuit_calm k _ fun _ => id))
    fun _ => s.driftSettled_calm k

theorem State.recordUnreadable_countsAgree (k : Nat) (hk : k < 512) (h : s.countsAgree) :
    (s.recordUnreadable k).countsAgree := by
  unfold State.recordUnreadable
  dsimp only
  split
  · refine State.setCircuitState_countsAgree _ k .broken hk (State.countsAgree_of_store (s.putCircuit_countsAgree k
      (r := { s.circuit k with sweepResult := some .unreadable, cause := some .unreadable }) rfl h) rfl)
  split
  · exact State.countsAgree_of_store (s.setCircuitState_countsAgree k .drifted hk h) (State.raise_store _ _)
  · exact h

theorem State.recordSwept_calm (k : Nat) (words : List Word)
    (hw : s.window.state ≠ .verifying ∧ s.window.state ≠ .concluded) : Calm s (s.recordSwept k words) :=
  Calm.ite (fun _ => Calm.after (State.oweCircuit_calm _ k) (s.putCircuit_calm k _ fun _ => id)) fun _ =>
    Calm.ite_self fun _ =>
      Calm.after (State.setCircuitState_calm _ k .pending (.inr hw)) (s.putCircuit_calm k _ fun _ => id)

theorem State.recordSwept_sound (k : Nat) (words : List Word) (h : s.evidenceSound) :
    (s.recordSwept k words).evidenceSound := by
  unfold State.recordSwept
  dsimp only
  split
  · exact (State.oweCircuit_calm _ k).sound (s.putCircuit_sound k (fun _ => id) h)
  split
  · exact State.setCircuitState_sound _ k .pending (s.putCircuit_sound k (fun _ => id) h)
  · exact h

theorem State.recordSwept_countsAgree (k : Nat) (words : List Word) (hk : k < 512) (h : s.countsAgree) :
    (s.recordSwept k words).countsAgree := by
  unfold State.recordSwept
  dsimp only
  split
  · exact State.countsAgree_of_store (s.putCircuit_countsAgree k
      (r := { s.circuit k with
        swept := some words, sweepResult := some (sweepResultOf (s.circuit k).baseline words) }) rfl h) rfl
  split
  · exact State.setCircuitState_countsAgree _ k .pending hk (s.putCircuit_countsAgree k (by rfl) h)
  · exact h

/-- R122: with a close sweep running, the circuit swept recorded in `v`, and the sweep going on from there. -/
theorem State.sweptOn_ordered (set : List Nat) (low : Nat) (hj : s.sweep.job.isCloseSweep = true)
    (ho : s.windowOrdered) (hv : Calm s v) (hc : v.countsAgree) : (v.sweepOn set low).windowOrdered := by
  have hw : v.window.state = .sweeping := hv.state.trans (ho.1.2.mpr hj)
  have hordered := hv.ordered ho
  have hl : v.layout ≠ none := fun hnone => by simp [hordered.1.1.mpr hnone] at hw
  exact v.sweepOn_ordered set low (hordered.timersRest (by simp [hw]) (by simp [hw]) (by simp [hw])) hw hl hc

theorem State.takeCloseWord_kept (set : List Nat) (c p q : Nat) (words old : List Word) (data : Word)
    (hj : s.sweep.job = .closeSweep set c q old) : WindowKept s (s.takeCloseWord set c p words data) := by
  have hclose : s.sweep.job.isCloseSweep = true := by rw [hj]; rfl
  unfold State.takeCloseWord
  dsimp only
  split
  · exact (s.runJob_calm (.closeSweep set c (p + 1) (words ++ [data])) hclose).kept
  · refine ⟨fun ⟨_, _, hjob, _⟩ hc ho => ?_, fun hs => State.sweepOn_sound _ _ _ (s.recordSwept_sound c _ hs)⟩
    have hw : s.window.state = .sweeping := ho.1.2.mpr hclose
    rw [hj] at hjob
    exact s.sweptOn_ordered _ _ hclose ho (s.recordSwept_calm c _ (by simp [hw]))
      (s.recordSwept_countsAgree c _ hjob.1 hc)

/-- Numbers in range are a matter of the Circuit Store and the Sweep Engine. -/
theorem State.numbersInRange_congr (h : s.numbersInRange) (hs : t.store = s.store) (hw : t.sweep = s.sweep) :
    t.numbersInRange := by
  simpa only [State.numbersInRange, State.mapEntry, State.boundTo, hs, hw] using h

/-- A window left where it is, with the store and the Sweep Engine as they are, and then kept in order. -/
theorem WindowKept.after_calm {s : State} (h' : WindowKept v t) (h : Calm s v) (hs : v.store = s.store)
    (hw : v.sweep = s.sweep) : WindowKept s t :=
  ⟨fun hn hc ho => h'.ordered (s.numbersInRange_congr hn hs hw) (State.countsAgree_of_store hc hs) (h.ordered ho),
    fun hsound => h'.sound (h.sound hsound)⟩

theorem State.completeCloseSweepRead_kept (data : Word) : WindowKept s (s.completeCloseSweepRead data) := by
  unfold State.completeCloseSweepRead
  split
  · exact (Calm.refl s).kept
  split
  · exact (Calm.after (State.releaseHeldSweep_calm _) s.freePort_calm).kept
  split
  · rename_i set c p words hjob
    exact (s.freePort.takeCloseWord_kept set c p p words words data hjob).after_calm s.freePort_calm rfl rfl
  all_goals exact (Calm.refl s).kept

/-! ### Failures (R42 to R46) -/

/-- R121, R122, R126, R131: a failure of the Sweep Engine's access, job by job. -/
theorem State.failSweep_kept : WindowKept s s.failSweep := by
  unfold State.failSweep
  split
  · exact (Calm.refl s).kept
  · rename_i hjob
    exact (s.failCapture_calm _ _ (by rw [hjob]; rfl)).kept
  · rename_i set c p words hjob
    have hclose : s.sweep.job.isCloseSweep = true := by rw [hjob]; rfl
    refine ⟨fun ⟨_, _, hrange, _⟩ hc ho => ?_, fun hs =>
      State.sweepOn_sound _ _ _ ((s.recordUnreadable_calm c).sound hs)⟩
    rw [hjob] at hrange
    exact s.sweptOn_ordered _ _ hclose ho (s.recordUnreadable_calm c) (s.recordUnreadable_countsAgree c hrange.1 hc)
  · rename_i c p hjob
    have hj : s.sweep.job.isCloseSweep = false := by rw [hjob]; rfl
    have hdrifted := s.driftSettled_calm c
    exact (Calm.after (State.driftOn_calm _ _ (hdrifted.closing.trans hj)) hdrifted).kept
  · rename_i c p earlier hjob
    refine (s.finishRestore_calm c _ _ _ ?_ (by rw [hjob]; rfl)).kept
    cases earlier <;> exact nofun

theorem State.failInternal_kept (who : Requester) (r : Request) : WindowKept s (s.failInternal who r) := by
  have htold : Calm s ((s.writeFault r.addr who.faultKind 0).raise .busFault) :=
    Calm.after (State.raise_calm _ .busFault) (s.writeFault_calm _ _ _)
  have hkept : ((s.writeFault r.addr who.faultKind 0).raise .busFault).store = s.store
      ∧ ((s.writeFault r.addr who.faultKind 0).raise .busFault).sweep = s.sweep := by
    rw [State.raise_frame]
    exact ⟨rfl, rfl⟩
  unfold State.failInternal
  dsimp only
  split
  · exact (Calm.after (State.releaseHeldSweep_calm _) htold).kept
  · cases who with
    | passPath => exact htold.kept
    | directive => exact (Calm.after (State.failDirective_calm _) htold).kept
    | sweep => exact (State.failSweep_kept _).after_calm htold hkept.1 hkept.2
    | report => exact (Calm.after (State.failReport_calm _) htold).kept

theorem State.failAccess_kept : WindowKept s s.failAccess := by
  have hinternal (who : Requester) (r : Request) :
      WindowKept s (if r.retry then s.freePort.failInternal who r else s.freePort.retry who r) := by
    split
    · exact (s.freePort.failInternal_kept who r).after_calm s.freePort_calm rfl rfl
    · exact (Calm.after (State.retry_calm _ who r) s.freePort_calm).kept
  unfold State.failAccess
  split
  · exact (Calm.refl s).kept
  · dsimp only
    split
    · exact (Calm.after (State.failForwarded_calm _) s.freePort_calm).kept
    all_goals exact hinternal _ _

/-! ### The directives that move the window (R99 to R116, R148) -/

/-- R156: a directive keeps the window in order if its effect does. -/
theorem State.runDirective_kept (k : DirectiveKind) (refusal : State → Option DirectiveAnswer) (effect : State → State)
    (h : refusal s = none → WindowKept s (effect s)) : WindowKept s (s.runDirective k refusal effect) := by
  unfold State.runDirective
  split
  · split
    · exact (s.answerDirective_calm _).kept
    · rename_i hnone
      exact (h hnone).then_calm (State.answerDirective_calm _ _)
  · exact (Calm.refl s).kept

theorem State.refusedUnless_eq_none {s : State} {w : WindowState} (h : s.refusedUnless w = none) :
    s.window.state = w := by
  unfold State.refusedUnless at h
  split at h
  · assumption
  · cases h

/-- R99: a LAYOUT that no check refuses finds the window in NO_LAYOUT or QUIET. -/
theorem State.layoutRefusal_eq_none (h : s.layoutRefusal = none) :
    s.window.state = .noLayout ∨ s.window.state = .quiet := by
  unfold State.layoutRefusal at h
  split at h
  · cases h
  · split at h
    case h_1 hw => exact .inl hw
    case h_2 hw => exact .inr hw
    all_goals cases h

theorem State.acceptLayout_kept (h : s.layoutRefusal = none) : WindowKept s s.acceptLayout := by
  have hovertaken := s.overtakeRecord_calm
  unfold State.acceptLayout
  dsimp only
  generalize s.overtakeRecord = v at *
  have hw : v.window.state = .noLayout ∨ v.window.state = .quiet := by
    rw [hovertaken.state]
    exact s.layoutRefusal_eq_none h
  refine ⟨fun _ _ ho => ?_, fun hs => State.setWindowState_sound _ .quiet (hovertaken.sound hs)⟩
  have hordered := hovertaken.ordered ho
  have hrest : v.TimersRest := by
    rcases hw with hw | hw <;> exact hordered.timersRest (by simp [hw]) (by simp [hw]) (by simp [hw])
  have hj : v.sweep.job.isCloseSweep = false :=
    Bool.eq_false_iff.mpr fun hclose => by rcases hw with hw | hw <;> simp [hordered.1.2.mpr hclose] at hw
  refine Calm.ordered (Calm.of_eq rfl) (State.TimersRest.setWindowState (w := .quiet) ?_ nofun nofun nofun hj nofun)
  exact ⟨hrest.deadline, hrest.settle, hrest.silence, hrest.limit, hrest.steady⟩

/-- R100: an OPEN that no check refuses finds the window in QUIET. -/
theorem State.openRefusal_eq_none (h : s.openRefusal = none) : s.window.state = .quiet := by
  by_contra hw
  unfold State.openRefusal at h
  dsimp only at h
  split at h
  · cases h
  split at h
  · cases h
  · cases h

/-- R101 to R103: the circuits captured and named by an OPEN, before the window's times are taken. -/
def State.openNamed : State :=
  let f := openFields s.directive.chain
  let captured := s.forEach s.loadedCircuits State.captureEntry
  (((captured.setWindowFlags false false).setWindowNumber f.number).clearWorkSet).forEach f.work State.holdNamed

theorem State.openNamed_calm : Calm s s.openNamed := by
  unfold State.openNamed
  exact Calm.after (Calm.forEach _ _ fun v k _ => v.holdNamed_calm k) <| Calm.after (State.clearWorkSet_calm _) <|
    Calm.after (State.setWindowNumber_calm _ _) <| Calm.after (State.setWindowFlags_calm _ _ _) <|
    Calm.forEach _ _ fun v k _ => v.captureEntry_calm k

/-- R101: an OPEN accepted takes the window's times, and the window is OPEN. -/
theorem State.acceptOpen_eq :
    s.acceptOpen = State.setWindowState { s.openNamed with
      window := { s.openNamed.window with
        deadline := .running (1000 * clampNat 60 43200 (openFields s.directive.chain).deadline)
        settleTime := clampNat 0 900 (openFields s.directive.chain).settle
        verifyLimit := clampNat 30 7200 (openFields s.directive.chain).verify
        steadyTime := clampNat 0 255 (openFields s.directive.chain).steady }
      trace := { s.openNamed.trace with
        silenceLimit := clampNat 100 60000 (openFields s.directive.chain).silence } } .opened := by
  unfold State.acceptOpen State.openNamed
  dsimp only

theorem State.acceptOpen_kept (h : s.openRefusal = none) : WindowKept s s.acceptOpen := by
  have hnamed := s.openNamed_calm
  have hw : s.openNamed.window.state = .quiet := hnamed.state.trans (s.openRefusal_eq_none h)
  rw [s.acceptOpen_eq]
  generalize s.openNamed = v at *
  refine ⟨fun _ _ ho => ?_, fun hs => State.setWindowState_sound _ .opened (hnamed.sound hs)⟩
  have hordered := hnamed.ordered ho
  have hrest := hordered.timersRest (by simp [hw]) (by simp [hw]) (by simp [hw])
  obtain ⟨⟨hlayout, hclosing⟩, -⟩ := hordered
  rw [State.setWindowState_frame]
  refine ⟨⟨iff_of_false nofun fun hnone => ?_, iff_of_false nofun fun hclose => ?_⟩, ⟨fun hrun => ?_, nofun⟩,
    fun hnot => absurd rfl hnot, fun _ => hrest.settle, fun _ => hrest.silence, fun _ => hrest.limit⟩
  · simp [hlayout.mpr hnone] at hw
  · simp [hclosing.mpr hclose] at hw
  · cases hrest.steady.symm.trans hrun

theorem State.closeWindow_kept (hw : s.window.state = .opened) : WindowKept s s.closeWindow :=
  ⟨fun _ _ ho => s.closeWindow_ordered ho hw, s.closeWindow_sound⟩

theorem State.acceptAbandon_kept (h : s.abandonRefusal = none) : WindowKept s s.acceptAbandon := by
  have hwindow : s.window.state ≠ .noLayout := fun hw => by
    unfold State.abandonRefusal at h
    rw [hw] at h
    cases h
  have hgoes : Calm s.windowAbandoned s.acceptAbandon := by
    rw [State.acceptAbandon_eq]
    exact Calm.after (State.startNextJob_calm _) (State.markDriftDue_calm _)
  have hevidence := State.windowAbandoned_evidenceOf (s := s)
  have hcircuit := State.windowAbandoned_circuit (s := s)
  have hframe := State.windowAbandoned_frame (s := s)
  obtain ⟨-, -, -, -, hj, -⟩ := State.stopCloseSweep_frame (s := s)
  refine WindowKept.then_calm ⟨fun _ _ ho => ?_, fun hs => ?_⟩ hgoes
  · have hsilence : ∀ ch, (s.windowAbandoned.evidenceOf ch).silence = .stopped := fun ch => by rw [hevidence]
    generalize s.windowAbandoned = v at *
    have hl : s.layout ≠ none := fun hnone => hwindow (ho.1.1.mpr hnone)
    have hstate : v.window.state = .quiet := by rw [hframe]
    have hclosing : v.sweep.job.isCloseSweep = false := by rw [hframe]; exact hj
    refine State.TimersRest.ordered ⟨?_, ?_, hsilence, ?_, ?_⟩ (by simp [hstate]) ?_ (by simp [hstate, hclosing])
      (by simp [hstate])
    all_goals rw [hframe]
    · rfl
    · rfl
    · exact hl
  · refine State.evidenceSound_of_reads hs (fun ch hch => ?_) fun c p => ?_
    · rw [hevidence]
      exact hch
    · rw [hcircuit]
      split
      · exact id
      · exact id

theorem State.acceptAccept_kept (hw : s.window.state = .concluded) : WindowKept s s.acceptAccept := by
  have hgoes : Calm s.windowAccepted s.acceptAccept := by
    rw [State.acceptAccept_eq]
    exact Calm.after (State.startNextJob_calm _) (State.markDriftDue_calm _)
  have hcircuit := State.windowAccepted_circuit (s := s)
  obtain ⟨st, jn, rp, hframe⟩ : ∃ st jn rp, s.windowAccepted = { s with
      store := st, window := { s.window with state := .quiet, workSet := [] }, journal := jn, report := rp } :=
    ⟨_, _, _, State.windowAccepted_frame⟩
  refine WindowKept.then_calm ⟨fun _ _ ho => ?_, fun hs => ?_⟩ hgoes
  · have hrest := ho.timersRest (by simp [hw]) (by simp [hw]) (by simp [hw])
    have hl : s.layout ≠ none := fun hnone => by simp [ho.1.1.mpr hnone] at hw
    have hj : s.sweep.job.isCloseSweep = false :=
      Bool.eq_false_iff.mpr fun hclose => by simp [ho.1.2.mpr hclose] at hw
    rw [hframe]
    exact State.TimersRest.ordered ⟨hrest.deadline, hrest.settle, hrest.silence, hrest.limit, hrest.steady⟩ nofun hl
      (iff_of_false nofun (by simp [hj])) nofun
  · refine State.evidenceSound_of_reads hs (fun ch => ?_) fun c p => ?_
    · rw [hframe]
      exact id
    · rw [hcircuit]
      split
      · rw [Circuit.accepted_eq]
        exact id
      · exact id

theorem State.recheck_kept (hw : s.window.state = .concluded) : WindowKept s (s.enterVerifying Circuit.rechecked) := by
  have hsound := s.enterVerifying_sound Circuit.rechecked
  have hordered := s.enterVerifying_ordered Circuit.rechecked
  generalize s.enterVerifying Circuit.rechecked = v at *
  refine ⟨fun _ hc ho => ?_, hsound⟩
  have hl : s.layout ≠ none := fun hnone => by simp [ho.1.1.mpr hnone] at hw
  have hj : s.sweep.job.isCloseSweep = false :=
    Bool.eq_false_iff.mpr fun hclose => by simp [ho.1.2.mpr hclose] at hw
  exact hordered (ho.timersRest (by simp [hw]) (by simp [hw]) (by simp [hw])) hl hj hc

/-! ### Every command -/

/-- A command that does `f` when the chip is out of reset keeps the window in order if `f` does. -/
theorem kept_of_live (f : State → State) {c : Instr} (h : exec c s = .next t) (hlive : exec c s = live f s)
    (hf : WindowKept s (f s)) : WindowKept s t := by
  rw [hlive] at h
  unfold live at h
  cases h
  split
  · exact (Calm.refl s).kept
  · exact hf.then_calm (State.endEvent_calm _)

/-- R156: a directive command keeps the window in order if its effect does. -/
theorem kept_of_directive (k : DirectiveKind) (refusal : State → Option DirectiveAnswer) (effect : State → State)
    {c : Instr} (h : exec c s = .next t) (hlive : exec c s = live (fun s => s.runDirective k refusal effect) s)
    (hf : refusal s = none → WindowKept s (effect s)) : WindowKept s t :=
  kept_of_live s _ h hlive (s.runDirective_kept k refusal effect hf)

/-- A write presented to the chip, which refuses an empty set of lanes, keeps the window in order. -/
theorem kept_of_presentWrite {c : Instr} (addr : WordAddr) (data : Word) (lanes : Lanes) (m : Master)
    (h : exec c s = .next t) (hwrite : exec c s = presentWrite addr data lanes m s) : WindowKept s t := by
  unfold presentWrite at hwrite
  split at hwrite
  · cases hwrite.symm.trans h
  · exact kept_of_live s (fun s => s.present addr (.write data lanes) m) h hwrite (s.present_calm addr _ m).kept

/-- Every command but the resets keeps the window in order and the evidence sound. -/
theorem exec_kept {c : Instr} (hreset : c ≠ .reset) (hend : ∀ d b, c ≠ .resetEnd d b) (h : exec c s = .next t) :
    WindowKept s t := by
  cases c with
  | reset => exact absurd rfl hreset
  | resetEnd d b => exact absurd rfl (hend d b)
  | connectionWrite c lanes data m | upstreamWrite c lanes data m => exact kept_of_presentWrite s _ _ _ _ h rfl
  | landingTagWrite => exact kept_of_presentWrite s _ _ _ _ h rfl
  | consumerWordWrite => exact kept_of_presentWrite s _ _ _ _ h rfl
  | closingWord addr data m =>
    exact kept_of_live s (fun s => s.present addr (.write data 0xF) m) h rfl (s.present_calm _ _ _).kept
  | upstreamRead addr m => exact kept_of_live s (fun s => s.present addr .read m) h rfl (s.present_calm _ _ _).kept
  | lateErrorAccess addr op m =>
    cases op with
    | read => exact kept_of_live s (fun s => s.present addr .read m) h rfl (s.present_calm _ _ _).kept
    | write => exact kept_of_presentWrite s _ _ _ _ h rfl
  | holdLimitExpiry => exact kept_of_live s State.expireHold h rfl s.expireHold_calm.kept
  | portGrant => exact kept_of_live s State.grantPort h rfl s.grantPort_calm.kept
  | forwardedWriteComplete =>
    exact kept_of_live s State.completeForwardedWrite h rfl s.completeForwardedWrite_calm.kept
  | forwardedReadComplete data =>
    exact kept_of_live s (fun s => s.completeForwardedRead data) h rfl (s.completeForwardedRead_calm _).kept
  | downstreamTimeout | downstreamErrorCompletion => exact kept_of_live s State.failAccess h rfl s.failAccess_kept
  | classify => exact kept_of_live s State.classifyNext h rfl s.classifyNext_kept
  | arrivalConsumption => exact kept_of_live s State.consumeArrival h rfl s.consumeArrival_calm.kept
  | silenceExpiry channel =>
    exact kept_of_live s (fun s => s.expireSilence channel.val) h rfl (s.expireSilence_kept _)
  | layout =>
    exact kept_of_directive s .layout State.layoutRefusal State.acceptLayout h rfl s.acceptLayout_kept
  | setPolicy =>
    exact kept_of_directive s .setPolicy State.policyRefusal State.acceptPolicy h rfl fun _ => s.acceptPolicy_calm.kept
  | load => exact kept_of_live s State.runLoad h rfl s.runLoad_calm.kept
  | drop =>
    exact kept_of_directive s .drop State.dropRefusal State.acceptDrop h rfl fun _ => s.acceptDrop_calm.kept
  | openWindow =>
    exact kept_of_directive s .openWindow State.openRefusal State.acceptOpen h rfl s.acceptOpen_kept
  | mark =>
    exact kept_of_directive s .mark State.markRefusal State.acceptMark h rfl fun _ => s.acceptMark_calm.kept
  | close =>
    exact kept_of_directive s .close (fun s => s.refusedUnless .opened) State.closeWindow h rfl
      fun hr => s.closeWindow_kept (State.refusedUnless_eq_none hr)
  | abandon =>
    exact kept_of_directive s .abandon State.abandonRefusal State.acceptAbandon h rfl s.acceptAbandon_kept
  | accept =>
    exact kept_of_directive s .accept (fun s => s.refusedUnless .concluded) State.acceptAccept h rfl
      fun hr => s.acceptAccept_kept (State.refusedUnless_eq_none hr)
  | recheck =>
    exact kept_of_directive s .recheck (fun s => s.refusedUnless .concluded)
      (fun s => s.enterVerifying Circuit.rechecked) h rfl
      fun hr => s.recheck_kept (State.refusedUnless_eq_none hr)
  | restore =>
    exact kept_of_directive s .restore State.restoreRefusal State.acceptRestore h rfl
      fun _ => s.acceptRestore_calm.kept
  | deadlineExpiry => exact kept_of_live s State.expireDeadline h rfl s.expireDeadline_kept
  | settleExpiry => exact kept_of_live s State.expireSettle h rfl s.expireSettle_kept
  | steadyExpiry => exact kept_of_live s State.expireSteady h rfl s.expireSteady_kept
  | verifyLimitExpiry => exact kept_of_live s State.expireVerifyLimit h rfl s.expireVerifyLimit_kept
  | captureReadComplete data =>
    exact kept_of_live s (fun s => s.completeCaptureRead data) h rfl (s.completeCaptureRead_calm _).kept
  | closeSweepReadComplete data =>
    exact kept_of_live s (fun s => s.completeCloseSweepRead data) h rfl (s.completeCloseSweepRead_kept _)
  | driftSweepReadComplete data =>
    exact kept_of_live s (fun s => s.completeDriftSweepRead data) h rfl (s.completeDriftSweepRead_calm _).kept
  | restoreWriteComplete => exact kept_of_live s State.completeRestoreWrite h rfl s.completeRestoreWrite_calm.kept
  | directiveFetchReadComplete data =>
    exact kept_of_live s (fun s => s.completeFetchRead data) h rfl (s.completeFetchRead_calm _).kept
  | directiveCompletionWriteEnd =>
    exact kept_of_live s State.completeCompletionWrite h rfl s.completeCompletionWrite_calm.kept
  | reportWriteStart => exact kept_of_live s State.startReport h rfl s.startReport_calm.kept
  | reportWordComplete => exact kept_of_live s State.completeReportWord h rfl s.completeReportWord_calm.kept
  | reportHoldOffExpiry => exact kept_of_live s State.endReportHoldOff h rfl s.endReportHoldOff_calm.kept
  | summaryRewriteStart => exact kept_of_live s State.rewriteSummary h rfl s.endEvent_calm.kept
  | summaryWordComplete => exact kept_of_live s State.completeSummaryWord h rfl s.completeSummaryWord_calm.kept
  | summaryHoldOffExpiry => exact kept_of_live s State.endSummaryHoldOff h rfl s.endSummaryHoldOff_calm.kept
  | attnPulseEnd => exact kept_of_live s State.endPulse h rfl (Calm.kept (Calm.of_eq (u := s) (t := s.endPulse) rfl))

/-! ### Every step -/

/-- A state with the window and the evidence of the reset state. -/
theorem kept_of_reset (h : t.watch = State.reset.watch) : WindowKept s t := by
  obtain ⟨-, -, -, -, -, -, -, hsound, -, -, hwindow, hverdicts, htimers, -⟩ := resetMeetsInvariants
  have hcalm : Calm State.reset t := Calm.of_eq h
  exact ⟨fun _ _ _ => hcalm.ordered ⟨hwindow, hverdicts, htimers⟩, fun _ => hcalm.sound hsound⟩

/-- Every step, of any command or of the clock, keeps the window in order and the evidence sound. -/
theorem step_kept (h : step s = .next t) : WindowKept s t := by
  unfold step at h
  split at h
  · cases h
    exact s.passPeriod_calm.kept
  · rename_i c rest _
    have hdequeued : Calm s { s with pending := rest } := Calm.of_eq rfl
    refine WindowKept.after_calm ?_ hdequeued rfl rfl
    by_cases hr : c = .reset
    · subst hr
      cases h
      exact kept_of_reset _ rfl
    by_cases he : ∃ d b, c = .resetEnd d b
    · obtain ⟨d, b, rfl⟩ := he
      cases h
      split
      · exact kept_of_reset _ rfl
      · exact (Calm.refl _).kept
    · exact exec_kept _ hr (fun d b hc => he ⟨d, b, hc⟩) h

/-- Settles O57: every command leaves the window where it is, or moves it from one state in order to another. -/
theorem windowStatesAgree : Obligations.WindowStatesAgree := by
  unfold Obligations.WindowStatesAgree
  intro s t hnumbers hcounts hwindow hverdicts htimers h
  exact (step_kept s h).ordered hnumbers hcounts ⟨hwindow, hverdicts, htimers⟩

/-- Settles O55: the power and the tag step keep a record's ranges, a reset gives a fresh one, and a reference power is
a smoothed power captured. -/
theorem evidenceStaysSound : Obligations.EvidenceStaysSound := by
  unfold Obligations.EvidenceStaysSound
  intro s t hsound h
  exact (step_kept s h).sound hsound

end Sys2Proof.Machine
end

section
/-! Settles O24: in VERIFYING a silence expiry and an arrival evaluate the bound window circuit. -/

namespace Sys2Proof.Machine

variable (s : State)

/-- R139, R141: from `s` to `t` circuit `c` is given the verdict `v`: the one it has changes nothing, another is
counted, reported, and acts on the steady timer. No other circuit changes. -/
structure VerdictGiven (c : Nat) (v : CircuitState × Option VerdictCause) (s t : State) : Prop where
  same : v = ((s.circuit c).state, (s.circuit c).cause) → t.circuit c = s.circuit c ∧ t.verdict = s.verdict
  taken : v ≠ ((s.circuit c).state, (s.circuit c).cause) →
    t.circuit c = { s.circuit c with
      state := v.1, cause := v.2, verdictChanges := min 255 ((s.circuit c).verdictChanges + 1) }
    ∧ Table.get false t.report.owed c = true
    ∧ (t.count .pending = 0 → t.verdict.steady = ⟨true, 1000 * s.window.steadyTime⟩)
    ∧ (t.count .pending ≠ 0 → t.verdict.steady = { s.verdict.steady with running := false })
    ∧ t.verdict.limit = s.verdict.limit
  others : ∀ k, k ≠ c → t.circuit k = s.circuit k

/-- A verdict given still stands when the store, the timers and the CIRCUIT reports owed are left as they are. -/
theorem VerdictGiven.congr {c : Nat} {v : CircuitState × Option VerdictCause} {s t t' : State}
    (h : VerdictGiven c v s t) (hstore : t'.store = t.store) (hverdict : t'.verdict = t.verdict) (howed : t'.report.owed = t.report.owed) :
    VerdictGiven c v s t' := by
  obtain ⟨hsame, htaken, hothers⟩ := h
  have hcircuit := fun k => State.circuit_of_store hstore k
  refine ⟨?_, ?_, fun k hk => (hcircuit k).trans (hothers k hk)⟩
  · rwa [hcircuit, hverdict]
  · rwa [hcircuit, howed, hverdict, State.count_of_store hstore]

/-- R139, R141: an evaluation gives the circuit the verdict of the rows of R138. -/
theorem State.evaluate_verdictGiven (c ch : Nat) :
    VerdictGiven c (newVerdict (s.circuit c) (s.evidenceOf ch)) s (s.evaluate c ch) := by
  by_cases hv : newVerdict (s.circuit c) (s.evidenceOf ch) = ((s.circuit c).state, (s.circuit c).cause)
  · rw [s.evaluate_same c ch hv]
    exact ⟨fun _ => ⟨rfl, rfl⟩, fun hne => absurd hv hne, fun _ _ => rfl⟩
  unfold State.evaluate
  dsimp only
  rw [if_neg hv]
  generalize newVerdict (s.circuit c) (s.evidenceOf ch) = v at *
  have hcircuit := s.changeVerdict_circuit c v.1 v.2
  have howes : Table.get false (s.changeVerdict c v.1 v.2).report.owed c = true := by
    unfold State.changeVerdict
    rw [State.oweCircuit_owes, if_pos rfl]
  obtain ⟨st, rp, hframe⟩ := s.changeVerdict_storeReport c v.1 v.2
  have hkept : (s.changeVerdict c v.1 v.2).verdict = s.verdict ∧ (s.changeVerdict c v.1 v.2).window = s.window := by
    rw [hframe]
    exact ⟨rfl, rfl⟩
  obtain ⟨hverdict, hwindow⟩ := hkept
  generalize s.changeVerdict c v.1 v.2 = u at *
  refine ⟨fun hsame => absurd hsame hv, fun _ => ⟨(hcircuit c).trans (if_pos rfl), howes, fun hcount => ?_,
    fun hcount => ?_, ?_⟩, fun k hk => (hcircuit k).trans (if_neg hk)⟩
  · have hstart : u.actSteady.verdict.steady = VerdictTimer.start u.window.steadyTime := if_pos hcount
    rw [hstart, hwindow]
    rfl
  · have hstop : u.actSteady.verdict.steady = u.verdict.steady.stop := if_neg hcount
    rw [hstop, hverdict]
    rfl
  · show u.verdict.limit = s.verdict.limit
    rw [hverdict]

/-- R139, R141: an evaluation changes the Circuit Store, the marks of the Report Unit and the steady timer. -/
theorem State.evaluate_frame (c ch : Nat) :
    ∃ st rp vd, s.evaluate c ch = { s with store := st, report := rp, verdict := vd } := by
  by_cases hv : newVerdict (s.circuit c) (s.evidenceOf ch) = ((s.circuit c).state, (s.circuit c).cause)
  · exact ⟨s.store, s.report, s.verdict, s.evaluate_same c ch hv⟩
  · obtain ⟨st, rp, hframe⟩ := s.changeVerdict_storeReport c (newVerdict (s.circuit c) (s.evidenceOf ch)).1
      (newVerdict (s.circuit c) (s.evidenceOf ch)).2
    unfold State.evaluate
    dsimp only
    rw [if_neg hv, hframe]
    exact ⟨st, rp, _, rfl⟩

/-- R77, R78: evidence handed over in VERIFYING on a window circuit's channel evaluates the circuit. -/
theorem State.evaluateHandedOver_verifying {c : Nat} (ch : Nat) (hc : (s.circuit c).state.inWindow = true)
    (hw : s.window.state = .verifying) : s.evaluateHandedOver c ch = s.evaluate c ch := if_pos ⟨hc, hw⟩

/-- R78: the silence timer expired, and the bound window circuit evaluated. -/
theorem State.expireSilence_verifying {ch c n : Nat} (hrunning : (s.evidenceOf ch).silence = .running n)
    (hbound : s.boundTo ch = some c) (hc : (s.circuit c).state.inWindow = true) (hw : s.window.state = .verifying) :
    s.expireSilence ch = (s.setSilence ch .expired).evaluate c ch := by
  unfold State.expireSilence
  rw [hrunning, hbound]
  exact State.evaluateHandedOver_verifying _ ch hc hw

/-- R82: the state with the oldest arrival taken from the queue. -/
def State.arrivalTaken (rest : List Arrival) : State :=
  ({ s with trace := { s.trace with arrivals := rest } }).wantSummary

/-- R82: the oldest arrival applied to the circuit bound to its channel; then a closing word held may be accepted. -/
theorem State.consumeArrival_bound {a : Arrival} {rest : List Arrival} {c : Nat}
    (harrivals : s.trace.arrivals = a :: rest) (hbound : s.boundTo a.channel = some c) :
    s.consumeArrival = ((s.arrivalTaken rest).applyArrival c a).endHold := by
  have htaken : (s.arrivalTaken rest).boundTo a.channel = some c := hbound
  unfold State.consumeArrival
  rw [harrivals]
  exact congrArg (fun o => ((s.arrivalTaken rest).forSome o fun t c => t.applyArrival c a).endHold) htaken

/-- R82: the evidence an arrival leaves, before the circuit is evaluated. -/
def State.arrivalRecorded (c : Nat) (a : Arrival) : State :=
  s.putEvidence a.channel { s.evidenceAfter c a with silence := s.silenceAfter c a }

/-- R77: in VERIFYING an arrival on a window circuit's channel evaluates the circuit from the evidence it leaves. -/
theorem State.applyArrival_verifying {c : Nat} (a : Arrival) (hc : (s.circuit c).state.inWindow = true)
    (hw : s.window.state = .verifying) : s.applyArrival c a = (s.arrivalRecorded c a).evaluate c a.channel :=
  State.evaluateHandedOver_verifying _ _ hc hw

/-- R77: in VERIFYING a VALID arrival on a window circuit's channel restarts the silence timer. -/
theorem State.silenceAfter_verifying {c : Nat} (a : Arrival) (hc : (s.circuit c).state.inWindow = true)
    (hw : s.window.state = .verifying) :
    s.silenceAfter c a =
      if a.tagState = .valid then .running s.trace.silenceLimit else (s.evidenceOf a.channel).silence := by
  simp [State.silenceAfter, hc, hw]

/-- R75: the end of a hold is a matter of the Pass Path, the arrival queue and the summary wanted. -/
theorem State.endHold_frame : ∃ p ar b, s.endHold =
    { s with pass := p, trace := { s.trace with arrivals := ar }, report := { s.report with wanted := b } } := by
  have hsame : ∃ p ar b, s =
      { s with pass := p, trace := { s.trace with arrivals := ar }, report := { s.report with wanted := b } } :=
    ⟨s.pass, s.trace.arrivals, s.report.wanted, rfl⟩
  unfold State.endHold
  split
  · split
    · unfold State.acceptClosing
      split
      · exact ⟨_, _, true, rfl⟩
      · exact ⟨_, s.trace.arrivals, s.report.wanted, rfl⟩
    · exact hsame
  all_goals exact hsame

/-- R75: with no closing word held, the queue's room lets nothing in. -/
theorem State.endHold_idle (h : ∀ a n, s.pass.step ≠ .hold a n) : s.endHold = s := by
  unfold State.endHold
  split
  · exact absurd ‹_› (h _ _)
  all_goals rfl

/-- R77, R82, R139, R141: an arrival consumed in VERIFYING on a window circuit's channel. -/
theorem State.consumeArrival_verifying {a : Arrival} {rest : List Arrival} {c : Nat}
    (harrivals : s.trace.arrivals = a :: rest) (hbound : s.boundTo a.channel = some c)
    (hc : (s.circuit c).state.inWindow = true) (hw : s.window.state = .verifying) :
    s.consumeArrival = (((s.arrivalTaken rest).arrivalRecorded c a).evaluate c a.channel).endHold :=
  (s.consumeArrival_bound harrivals hbound).trans
    (congrArg State.endHold ((s.arrivalTaken rest).applyArrival_verifying a hc hw))

/-- Settles O24: both hand the bound circuit's evidence over, and the evaluation says what follows. -/
theorem evaluatedInVerifying : Obligations.EvaluatedInVerifying := by
  unfold Obligations.EvaluatedInVerifying
  refine ⟨fun s ch c n hr hrunning hbound hc hw => ?_, fun s a rest c hr harrivals hbound hc hw => ?_⟩
  · have hevidence := s.setSilence_evidenceOf ch .expired
    have hgiven := (s.setSilence ch .expired).evaluate_verdictGiven c ch
    have hsame := (s.setSilence ch .expired).evaluate_same c ch
    obtain ⟨st, rp, vd, hframe⟩ := (s.setSilence ch .expired).evaluate_frame c ch
    rw [(hevidence ch).trans (if_pos rfl)] at hgiven hsame
    refine ⟨_, (live_running s (fun s => s.expireSilence ch.val) hr).trans
      (by rw [s.expireSilence_verifying hrunning hbound hc hw]), ?_, fun ch' hne => ?_, fun hv => ?_,
      hgiven.taken, hgiven.others, ?_⟩
    · rw [hframe]
      exact (hevidence ch).trans (if_pos rfl)
    · rw [hframe]
      exact (hevidence ch').trans (if_neg hne)
    · rw [hsame hv]
      rfl
    · rw [hframe]
      exact ⟨rfl, rfl, rfl, rfl⟩
  · have hsilence := (s.arrivalTaken rest).silenceAfter_verifying a hc hw
    have hevidence := (s.arrivalTaken rest).putEvidence_evidenceOf a.channel
      { (s.arrivalTaken rest).evidenceAfter c a with silence := (s.arrivalTaken rest).silenceAfter c a }
    have hgiven := ((s.arrivalTaken rest).arrivalRecorded c a).evaluate_verdictGiven c a.channel
    obtain ⟨st, rp, vd, hframe⟩ := ((s.arrivalTaken rest).arrivalRecorded c a).evaluate_frame c a.channel
    refine ⟨_, (live_running s State.consumeArrival hr).trans
      (by rw [s.consumeArrival_verifying harrivals hbound hc hw]), ?_⟩
    generalize ((s.arrivalTaken rest).arrivalRecorded c a).evaluate c a.channel = u at *
    have hidle := u.endHold_idle
    obtain ⟨p, ar, b, hhold⟩ := u.endHold_frame
    have hread (k : Nat) : u.endHold.evidenceOf k = ((s.arrivalTaken rest).arrivalRecorded c a).evidenceOf k := by
      rw [hhold, hframe]
      rfl
    have hgiven' := hgiven.congr (t' := u.endHold) (by rw [hhold]) (by rw [hhold]) (by rw [hhold])
    rw [← hread] at hgiven'
    refine ⟨?_, ⟨hgiven'.same, hgiven'.taken⟩, hgiven'.others, fun k hk => ?_, fun hno => ?_, ?_⟩
    · rw [hread]
      exact (congrArg Evidence.silence ((hevidence a.channel).trans (if_pos rfl))).trans hsilence
    · rw [hread]
      exact (hevidence k).trans (if_neg hk)
    · have hstep : u.pass = s.pass := by
        rw [hframe]
        rfl
      rw [hidle (by rw [hstep]; exact hno), hframe]
      exact ⟨rfl, rfl⟩
    · rw [hhold, hframe]
      exact ⟨rfl, rfl, rfl⟩

end Sys2Proof.Machine
end

section
/-! Settles O32: what a RECHECK makes of the window circuits and of their channels' evidence. -/

namespace Sys2Proof.Machine

variable (s : State)

/-! ### One circuit judged afresh, and one verification started (R135, R148) -/

theorem State.forgetVerdict_circuit (k j : Nat) :
    (s.forgetVerdict k).circuit j = if j = k then { s.circuit k with cause := none } else s.circuit j :=
  (State.circuit_of_store (s.forgetVerdict_store k) j).trans (s.putCircuit_circuit k _ j)

/-- R135, R148: a circuit judged afresh is PENDING with no cause. -/
theorem State.pendAfresh_circuit (k j : Nat) :
    (s.pendAfresh k).circuit j =
      if j = k then { s.circuit k with state := .pending, cause := none } else s.circuit j := by
  refine (State.circuit_of_store (s.pendAfresh_store k) j).trans ?_
  rw [State.setCircuitState_circuit, State.forgetVerdict_circuit, State.forgetVerdict_circuit, if_pos rfl]
  split <;> rfl

/-- R80, R135, R148: out of VERIFYING its channel's evidence is reset. -/
theorem State.pendAfresh_evidenceOf (k ch : Nat) (hw : s.window.state ≠ .verifying) :
    (s.pendAfresh k).evidenceOf ch = if (s.circuit k).channel = some ch then {} else s.evidenceOf ch := by
  obtain ⟨st, rp, hframe⟩ := StoreReportOnly.after (State.setCircuitState_storeReport _ k .pending)
    (s.forgetVerdict_storeReport k)
  rw [State.pendAfresh_eq, hframe]
  cases (s.circuit k).channel with
  | none => rfl
  | some c =>
    have hread := State.resetEvidence_evidenceOf { s with store := st, report := rp } c ch hw
    by_cases h : ch = c
    · subst h
      exact (hread.trans (if_pos rfl)).trans (if_pos rfl).symm
    · exact (hread.trans (if_neg h)).trans (if_neg fun heq => h (Option.some.inj heq).symm).symm

/-- R147: a verification started counts no verdict change. -/
theorem State.startVerification_circuit (k j : Nat) :
    (s.startVerification k).circuit j = if j = k then { s.circuit k with verdictChanges := 0 } else s.circuit j :=
  (State.circuit_of_store (s.startVerification_store k) j).trans (s.putCircuit_circuit k _ j)

/-- R77: and starts its channel's silence timer. -/
theorem State.startVerification_evidenceOf (k ch : Nat) :
    (s.startVerification k).evidenceOf ch =
      if (s.circuit k).channel = some ch then { s.evidenceOf ch with silence := .running s.trace.silenceLimit }
      else s.evidenceOf ch := by
  unfold State.startVerification
  cases (s.circuit k).channel with
  | none => rfl
  | some c =>
    have hread := (s.mapCircuit k fun r => { r with verdictChanges := 0 }).setSilence_evidenceOf c
      (.running s.trace.silenceLimit) ch
    by_cases h : ch = c
    · subst h
      exact (hread.trans (if_pos rfl)).trans (if_pos rfl).symm
    · exact (hread.trans (if_neg h)).trans (if_neg fun heq => h (Option.some.inj heq).symm).symm

/-! ### Every circuit of a list -/

/-- An effect that changes the evidence of a circuit's channel, by what it was, made for each of some circuits changes
the evidence of each of their channels so. -/
theorem State.forEach_evidenceOf (f : State → Nat → State) (g : Evidence → Evidence) (hg : ∀ e, g (g e) = g e)
    (hframe : ∀ v k, EvidenceToo v (f v k)) (hchannel : ∀ v k j, ((f v k).circuit j).channel = (v.circuit j).channel)
    (hread : ∀ v k ch, v.window = s.window → v.trace.silenceLimit = s.trace.silenceLimit →
      (f v k).evidenceOf ch = if (v.circuit k).channel = some ch then g (v.evidenceOf ch) else v.evidenceOf ch)
    (l : List Nat) (ch : Nat) :
    (s.forEach l f).evidenceOf ch =
      if ∃ k ∈ l, (s.circuit k).channel = some ch then g (s.evidenceOf ch) else s.evidenceOf ch := by
  induction l generalizing s with
  | nil => simp [State.forEach]
  | cons k rest ih =>
    obtain ⟨st, rp, ev, hf⟩ := hframe s k
    have hwindow : (f s k).window = s.window := by rw [hf]
    have hlimit : (f s k).trace.silenceLimit = s.trace.silenceLimit := by rw [hf]
    refine (ih (f s k) fun v k ch hw hl => hread v k ch (hw.trans hwindow) (hl.trans hlimit)).trans ?_
    rw [hread s k ch rfl rfl]
    simp only [hchannel]
    by_cases hk : (s.circuit k).channel = some ch
    · simp [hk, hg]
    · simp [hk]

/-- R135, R148: the chosen window circuits judged afresh, no verification started yet. -/
def State.chosenPended (chosen : Circuit → Bool) : State :=
  s.forEach (s.circuitsWhere fun r => r.state.inWindow && chosen r) State.pendAfresh

variable (chosen : Circuit → Bool)

theorem State.verificationStarted_eq :
    s.verificationStarted chosen =
      (s.chosenPended chosen).forEach (s.chosenPended chosen).windowCircuits State.startVerification := rfl

theorem State.mem_chosen (k : Nat) :
    k ∈ (s.circuitsWhere fun r => r.state.inWindow && chosen r)
      ↔ k ∈ s.windowCircuits ∧ chosen (s.circuit k) = true := by
  simp [State.circuitsWhere, State.windowCircuits, and_assoc]

theorem State.chosenPended_evidenceToo : EvidenceToo s (s.chosenPended chosen) :=
  EvidenceToo.forEach _ State.pendAfresh_evidenceToo _

theorem State.chosenPended_circuit (k : Nat) :
    (s.chosenPended chosen).circuit k =
      if k ∈ s.windowCircuits ∧ chosen (s.circuit k) = true then { s.circuit k with state := .pending, cause := none }
      else s.circuit k := by
  refine (s.forEach_circuit State.pendAfresh (fun r => { r with state := .pending, cause := none })
    State.pendAfresh_circuit (s.circuitsWhere fun r => r.state.inWindow && chosen r)
    (List.nodup_range.filter _) k).trans ?_
  exact ite_congr (propext (s.mem_chosen chosen k)) (fun _ => rfl) fun _ => rfl

/-- R135: the window circuits are those they were before some were judged afresh. -/
theorem State.chosenPended_windowCircuits : (s.chosenPended chosen).windowCircuits = s.windowCircuits := by
  have hcircuit := s.chosenPended_circuit chosen
  generalize s.chosenPended chosen = v at *
  unfold State.windowCircuits State.circuitsWhere
  refine List.filter_congr fun k _ => ?_
  rw [hcircuit]
  split
  · rename_i hk
    exact ((s.mem_windowCircuits k).mp hk.1).2.symm
  · rfl

theorem State.chosenPended_channel (k : Nat) :
    ((s.chosenPended chosen).circuit k).channel = (s.circuit k).channel := by
  rw [State.chosenPended_circuit]
  split <;> rfl

/-- R80: out of VERIFYING the evidence of the chosen circuits' channels is reset. -/
theorem State.chosenPended_evidenceOf (hw : s.window.state ≠ .verifying) (ch : Nat) :
    (s.chosenPended chosen).evidenceOf ch =
      if ∃ k ∈ s.windowCircuits, chosen (s.circuit k) = true ∧ (s.circuit k).channel = some ch then {}
      else s.evidenceOf ch := by
  refine (s.forEach_evidenceOf State.pendAfresh (fun _ => {}) (fun _ => rfl) State.pendAfresh_evidenceToo
    (fun v k j => ?_) (fun v k ch hv _ => v.pendAfresh_evidenceOf k ch (by rw [hv]; exact hw)) _ ch).trans ?_
  · rw [v.pendAfresh_circuit]
    split
    · rename_i h
      rw [h]
    · rfl
  · simp only [s.mem_chosen chosen, and_assoc]

/-- R135, R147, R148: the chosen window circuits are judged afresh, and every window circuit's verdict changes are 0. -/
theorem State.verificationStarted_circuit (k : Nat) :
    (s.verificationStarted chosen).circuit k =
      if k ∈ s.windowCircuits then
        if chosen (s.circuit k) then { s.circuit k with state := .pending, cause := none, verdictChanges := 0 }
        else { s.circuit k with verdictChanges := 0 }
      else s.circuit k := by
  rw [State.verificationStarted_eq]
  refine (State.forEach_circuit State.startVerification (fun r => { r with verdictChanges := 0 })
    State.startVerification_circuit _ State.windowCircuits_nodup k).trans ?_
  rw [State.chosenPended_windowCircuits, State.chosenPended_circuit]
  by_cases hk : k ∈ s.windowCircuits
  · by_cases hc : chosen (s.circuit k) = true
    · simp [hk, hc]
    · simp [hk, hc]
  · simp [hk]

/-- R77, R80: the evidence of a window circuit's channel is reset if the circuit is judged afresh, and its silence timer
runs; no other channel's evidence changes. -/
theorem State.verificationStarted_evidenceOf (hw : s.window.state ≠ .verifying) (ch : Nat) :
    (s.verificationStarted chosen).evidenceOf ch =
      if ∃ k ∈ s.windowCircuits, (s.circuit k).channel = some ch then
        { (if ∃ k ∈ s.windowCircuits, chosen (s.circuit k) = true ∧ (s.circuit k).channel = some ch then {}
            else s.evidenceOf ch) with silence := .running s.trace.silenceLimit }
      else s.evidenceOf ch := by
  have hlimit : (s.chosenPended chosen).trace.silenceLimit = s.trace.silenceLimit := by
    obtain ⟨st, rp, ev, hframe⟩ := s.chosenPended_evidenceToo chosen
    rw [hframe]
  rw [State.verificationStarted_eq]
  refine (State.forEach_evidenceOf _ State.startVerification
    (fun e => { e with silence := .running s.trace.silenceLimit }) (fun _ => rfl) State.startVerification_evidenceToo
    (fun v k j => ?_) (fun v k ch _ hl => ?_) _ ch).trans ?_
  · rw [v.startVerification_circuit]
    split
    · rename_i h
      rw [h]
    · rfl
  · rw [← hlimit, ← hl]
    exact v.startVerification_evidenceOf k ch
  · simp only [State.chosenPended_windowCircuits, State.chosenPended_channel, s.chosenPended_evidenceOf chosen hw]
    split
    · rfl
    · rename_i hnone
      exact if_neg fun ⟨k, hk, _, hc⟩ => hnone ⟨k, hk, hc⟩

end Sys2Proof.Machine
end

section
/-! Settles O32: a RECHECK enters VERIFYING, or concludes at once with no window circuit. -/

namespace Sys2Proof.Machine

variable (s : State) (chosen : Circuit → Bool)

/-! ### The window in VERIFYING (R135, R136) -/

/-- R135: the entry to VERIFYING changes, besides the circuits and the evidence, the window state, the verdict timers
and the marks of the Report Unit. -/
theorem State.verifying_frame : ∃ st rp ev, s.verifying chosen = { s with
    store := st, report := rp
    trace := { s.trace with evidence := ev }
    window := { s.window with state := .verifying }
    verdict := { limit := VerdictTimer.start s.window.verifyLimit, steady := s.verdict.steady.stop } } := by
  obtain ⟨st, rp, ev, hframe⟩ := s.verificationStarted_evidenceToo chosen
  unfold State.verifying
  rw [State.setWindowState_frame, hframe]
  exact ⟨_, _, _, rfl⟩

theorem State.verifying_circuit (k : Nat) :
    (s.verifying chosen).circuit k = (s.verificationStarted chosen).circuit k := by
  unfold State.verifying
  generalize s.verificationStarted chosen = v
  rw [State.setWindowState_frame]
  rfl

theorem State.verifying_evidenceOf (ch : Nat) :
    (s.verifying chosen).evidenceOf ch = (s.verificationStarted chosen).evidenceOf ch := by
  unfold State.verifying
  generalize s.verificationStarted chosen = v
  rw [State.setWindowState_frame]
  rfl

/-- R98: the entry makes a WINDOW report owed. -/
theorem State.verifying_windowOwed (hw : s.window.state ≠ .verifying) :
    (s.verifying chosen).report.windowOwed = true := by
  have hwindow : (s.verificationStarted chosen).window.state ≠ .verifying := by
    obtain ⟨st, rp, ev, hframe⟩ := s.verificationStarted_evidenceToo chosen
    rw [hframe]
    exact hw
  unfold State.verifying
  generalize s.verificationStarted chosen = v at *
  rw [State.setWindowState_owes _ _ (by exact hwindow)]

/-- R135: and leaves the window circuits those they were. -/
theorem State.verifying_windowCircuits : (s.verifying chosen).windowCircuits = s.windowCircuits := by
  have hcircuit (k : Nat) := (s.verifying_circuit chosen k).trans (s.verificationStarted_circuit chosen k)
  generalize s.verifying chosen = v at *
  unfold State.windowCircuits State.circuitsWhere
  refine List.filter_congr fun k _ => ?_
  rw [hcircuit]
  split
  · rename_i hk
    have hin := ((s.mem_windowCircuits k).mp hk).2
    split
    · exact hin.symm
    · rfl
  · rfl

/-- R136, R141: with a window circuit the steady timer starts if no circuit is PENDING, and nothing else happens. -/
theorem State.settleEntry_verifies (h : s.windowCircuits ≠ []) :
    s.settleEntry = { s with verdict := { s.verdict with
      steady := if s.count .pending = 0 then VerdictTimer.start s.window.steadyTime else s.verdict.steady } } := by
  unfold State.settleEntry
  rw [if_neg h]
  split <;> rfl

/-- R136, R143: the evidence of a window concluded. -/
theorem State.conclude_evidenceOf (ch : Nat) :
    s.conclude.evidenceOf ch = { s.evidenceOf ch with silence := .stopped } := by
  have hstopped := s.stopVerdictTimers.stopSilence_evidenceOf ch
  unfold State.conclude
  rw [State.raise_frame, State.setWindowState_frame]
  exact hstopped

theorem State.setWindowState_enables (w : WindowState) :
    (s.setWindowState w).report.enables = s.report.enables := by
  unfold State.setWindowState
  split <;> rfl

/-- R143, R169: CONCLUDED is raised. -/
theorem State.conclude_pends (h : s.report.enables.getLsbD 0 = true) :
    s.conclude.report.pending.getLsbD 0 = true := by
  obtain ⟨ev, hev⟩ := s.stopVerdictTimers.stopSilence_some
  refine State.raise_pends .concluded ?_
  rw [State.setWindowState_enables, hev]
  exact h

theorem State.enterVerifying_owner {c : Instr} (hc : ¬ mayDefine c) (i : Nat) :
    ((s.enterVerifying chosen).mapEntry i).owner = (s.mapEntry i).owner := by
  have hkept := (s.enterVerifying_moves (c := c) chosen).kept
  generalize s.enterVerifying chosen = v at *
  exact hkept.owners hc i

/-! ### RECHECK (R148) -/

/-- R148: the circuits a RECHECK sends back, as the statement names them. -/
theorem Circuit.rechecked_iff (r : Circuit) : r.rechecked = true ↔
    r.state = .degraded ∨ r.state = .silent ∨ (r.state = .broken ∧ r.cause = some .tagMismatch) := by
  unfold Circuit.rechecked
  cases h : r.state with
  | broken => simp
  | _ => simp

theorem exec_recheck (h : s.inHand .recheck) (hw : s.window.state = .concluded) :
    exec .recheck s = .next ((s.enterVerifying Circuit.rechecked).answerDirective ⟨.done, 0⟩).endEvent :=
  exec_directive_done s (refusal := fun s => s.refusedUnless .concluded)
    (effect := fun s => s.enterVerifying Circuit.rechecked) rfl h (if_pos hw)

/-- R77, R80: the window circuit of a channel says what a verification's start makes of the channel's evidence. -/
theorem State.verificationStarted_evidenceOf_bound {ch c : Nat} (hw : s.window.state ≠ .verifying)
    (hagree : s.channelsAgree) (hbound : s.boundTo ch = some c) (hc : c ∈ s.windowCircuits) :
    (s.verificationStarted chosen).evidenceOf ch =
      { (if chosen (s.circuit c) = true then {} else s.evidenceOf ch) with
        silence := .running s.trace.silenceLimit } := by
  have honly (k : Nat) (hk : (s.circuit k).channel = some ch) : k = c :=
    Option.some.inj (((hagree ch k).mpr hk).symm.trans hbound)
  have hchannel := (hagree ch c).mp hbound
  have hchosen : (∃ k ∈ s.windowCircuits, chosen (s.circuit k) = true ∧ (s.circuit k).channel = some ch)
      ↔ chosen (s.circuit c) = true :=
    ⟨fun ⟨k, _, hk, hkc⟩ => honly k hkc ▸ hk, fun h => ⟨c, hc, h, hchannel⟩⟩
  rw [State.verificationStarted_evidenceOf s chosen hw, if_pos ⟨c, hc, hchannel⟩]
  simp only [hchosen]

/-- R77: the evidence of a channel bound to no window circuit stays. -/
theorem State.verificationStarted_evidenceOf_other {ch : Nat} (hw : s.window.state ≠ .verifying)
    (hagree : s.channelsAgree) (hother : ∀ c, s.boundTo ch = some c → (s.circuit c).state.inWindow = false) :
    (s.verificationStarted chosen).evidenceOf ch = s.evidenceOf ch := by
  rw [State.verificationStarted_evidenceOf s chosen hw]
  refine if_neg fun ⟨k, hk, hchannel⟩ => ?_
  have hin := ((s.mem_windowCircuits k).mp hk).2
  rw [hother k ((hagree ch k).mpr hchannel)] at hin
  cases hin

/-- Settles O32: the window in VERIFYING with its steady timer, or concluded. -/
theorem recheckExecuted : Obligations.RecheckExecuted := by
  unfold Obligations.RecheckExecuted
  refine ⟨fun s hand hw hwindow hagree => ?_, fun s hand hw hnone => ?_⟩
  · have hverifying : s.window.state ≠ .verifying := by rw [hw]; decide
    have howner := s.enterVerifying_owner Circuit.rechecked (c := .recheck) (by rintro (h | h | h | h) <;> cases h)
    have hcircuit (k : Nat) :=
      (s.verifying_circuit Circuit.rechecked k).trans (s.verificationStarted_circuit Circuit.rechecked k)
    have hevidence := s.verifying_evidenceOf Circuit.rechecked
    have hbound := fun ch c => s.verificationStarted_evidenceOf_bound Circuit.rechecked (ch := ch) (c := c) hverifying
      hagree
    have hother := fun ch => s.verificationStarted_evidenceOf_other Circuit.rechecked (ch := ch) hverifying hagree
    have howed := s.verifying_windowOwed Circuit.rechecked hverifying
    obtain ⟨st, rp, ev, hframe⟩ := s.verifying_frame Circuit.rechecked
    have hsettled := (s.verifying Circuit.rechecked).settleEntry_verifies
      (by rw [s.verifying_windowCircuits]; exact hwindow)
    refine ⟨_, exec_recheck s hand hw, ?_⟩
    rw [State.answerDirective_plain _ _ rfl]
    rw [s.enterVerifying_eq, hsettled] at howner ⊢
    generalize s.verifying Circuit.rechecked = v at *
    simp only [Circuit.rechecked_iff] at hcircuit hbound
    refine ⟨fun c hc hin => ⟨fun hagain => ?_, fun hagain => ?_⟩, fun c hc => ?_, fun ch c hc hb hin =>
      ⟨fun hagain => ?_, fun hagain => ?_⟩, fun ch hch => (hevidence ch).trans (hother ch hch), ?_, howed, ?_, ?_,
      howner, ?_⟩
    · exact ((hcircuit c).trans (if_pos ((s.mem_windowCircuits c).mpr ⟨hc, hin⟩))).trans (if_pos hagain)
    · exact ((hcircuit c).trans (if_pos ((s.mem_windowCircuits c).mpr ⟨hc, hin⟩))).trans (if_neg hagain)
    · refine (hcircuit c).trans (if_neg fun hmem => ?_)
      obtain ⟨hlt, hin⟩ := (s.mem_windowCircuits c).mp hmem
      rcases hc with hc | hc
      · exact absurd hlt (Nat.not_lt.mpr hc)
      · rw [hc] at hin
        cases hin
    · refine (hevidence ch).trans ((hbound ch c hb ((s.mem_windowCircuits c).mpr ⟨hc, hin⟩)).trans ?_)
      rw [if_pos hagain]
    · refine (hevidence ch).trans ((hbound ch c hb ((s.mem_windowCircuits c).mpr ⟨hc, hin⟩)).trans ?_)
      rw [if_neg hagain]
    · rw [hframe]
    · rw [hframe]
      rfl
    · show (if v.count .pending = 0 then _ else v.verdict.steady).running = decide (v.count .pending = 0)
      split
      · rename_i h
        exact (decide_eq_true h).symm
      · rename_i h
        rw [decide_eq_false h, hframe]
        rfl
    · rw [hframe]
      exact ⟨rfl, rfl, rfl, rfl⟩
  · have hnil : s.windowCircuits = [] := List.eq_nil_iff_forall_not_mem.mpr fun c hmem => by
      obtain ⟨hc, hin⟩ := (s.mem_windowCircuits c).mp hmem
      rw [hnone c hc] at hin
      cases hin
    refine ⟨_, exec_recheck s hand hw, ?_⟩
    rw [State.answerDirective_plain _ _ rfl, s.enterVerifying_nil Circuit.rechecked hnil]
    have henables := State.setWindowState_enables { s with
      verdict := { limit := VerdictTimer.start s.window.verifyLimit, steady := s.verdict.steady.stop } } .verifying
    have hframe := State.setWindowState_frame { s with
      verdict := { limit := VerdictTimer.start s.window.verifyLimit, steady := s.verdict.steady.stop } } .verifying
    generalize State.setWindowState _ .verifying = v at *
    have hevidence := v.conclude_evidenceOf
    have howed := v.conclude_windowOwed (by rw [hframe]; nofun)
    have hpends := v.conclude_pends
    rw [henables] at hpends
    have hconcluded := v.conclude_frame
    generalize v.conclude = u at *
    refine ⟨?_, howed, ?_, fun ch => (hevidence ch).trans (by rw [hframe]; rfl), hpends, ?_⟩
    · rw [hconcluded, hframe]
      simp [← hw]
    · rw [hconcluded, hframe]
      rfl
    · rw [hconcluded, hframe]
      exact ⟨rfl, rfl, rfl, rfl, rfl⟩

end Sys2Proof.Machine
end

section
/-! Settles O22: between two present values the step of the smoothing is a floor division by a power of 2. -/

namespace Sys2Proof.Machine

/-- R89, property 2: towards a lower reading the smoothed power falls by at least 1. -/
theorem smooth_falls (k : Nat) {old r : Int} (h : r < old) : smooth k (some old) r ≤ old - 1 := by
  have hstep : (r - old) / 2 ^ k < 0 := Int.ediv_neg_of_neg_of_pos (by omega) (by positivity)
  simp only [smooth]
  omega

/-- R89, property 3: a reading above the smoothed power by less than 2^k leaves it where it is. -/
theorem smooth_stalls {k : Nat} {old r : Int} (h : 0 ≤ r - old) (hlt : r - old < 2 ^ k) :
    smooth k (some old) r = old := by
  have hstep : (r - old) / 2 ^ k = 0 := Int.ediv_eq_zero_of_lt h hlt
  simp only [smooth, hstep, Int.add_zero]

/-- R89, property 3: towards a reading above it by 2^k or more the smoothed power rises. -/
theorem smooth_rises {k : Nat} {old r : Int} (h : 2 ^ k ≤ r - old) : old < smooth k (some old) r := by
  have hstep : 1 ≤ (r - old) / 2 ^ k := (Int.le_ediv_iff_mul_le (by positivity)).mpr (by omega)
  simp only [smooth]
  omega

/-- R89, property 4: with shift 0 the smoothed power is the reading. -/
theorem smooth_shiftZero (old r : Int) : smooth 0 (some old) r = r := by
  simp only [smooth, pow_zero, Int.ediv_one]
  omega

/-- Settles O22: the bounds of `smooth_between`, and one fact for each property of R89. -/
theorem smoothingProperties : Obligations.SmoothingProperties := by
  unfold Obligations.SmoothingProperties
  intro k old r _ hold hold' hr hr'
  have hbetween := smooth_between k old r
  refine ⟨fun h => ?_, fun h => ⟨?_, smooth_falls k h⟩, fun h => smooth_stalls h.le, smooth_rises, ?_, ?_, ?_, rfl⟩
  · omega
  · omega
  · rintro rfl
    exact smooth_shiftZero old r
  · omega
  · omega

end Sys2Proof.Machine
end

section
/-! Settles O23: the rows of R138 and the tests of R94, one equation each. -/

namespace Sys2Proof.Machine

/-- R94: an absent smoothed power or reference power is judged MATCH. -/
theorem judgePower_absent {power reference : Option Int} (tolerance : Nat) (floor : Int)
    (h : power = none ∨ reference = none) : judgePower power reference tolerance floor = .matched := by
  rcases h with rfl | rfl
  · rfl
  · cases power <;> rfl

/-- R94: the judgement of two present powers; the floor and the fall beyond the tolerance give one result. -/
theorem judgePower_present (s p : Int) (tolerance : Nat) (floor : Int) :
    judgePower (some s) (some p) tolerance floor =
      if s < floor ∨ s - p < -(tolerance : Int) then .powerLow
      else if (tolerance : Int) < s - p then .powerHigh
      else .matched := by
  unfold judgePower
  by_cases hfloor : s < floor
  · simp only [hfloor, true_or, if_true]
  · simp only [hfloor, false_or, if_false, gt_iff_lt]

theorem Circuit.isUnreadable_eq_false_iff (r : Circuit) :
    r.isUnreadable = false ↔ ¬(r.state = .broken ∧ r.cause = some .unreadable) := decide_eq_false_iff_not

variable {r : Circuit} {e : Evidence}

/-- R138, row 1: a circuit BROKEN with UNREADABLE keeps its verdict. -/
theorem newVerdict_unreadable (hstate : r.state = .broken) (hcause : r.cause = some .unreadable) :
    newVerdict r e = (.broken, some .unreadable) := by
  have hr : r.isUnreadable = true := decide_eq_true ⟨hstate, hcause⟩
  simp only [newVerdict, hr, if_true, hstate, hcause]

/-- R138, row 2: a dark channel. -/
theorem newVerdict_dark (hr : r.isUnreadable = false) (hdark : e.dark = true) :
    newVerdict r e = (.silent, some .dark) := by
  simp only [newVerdict, hr, hdark, Bool.false_eq_true, if_false, if_true]

/-- R138, row 3: an expired silence timer. -/
theorem newVerdict_noArrivals (hr : r.isUnreadable = false) (hlight : e.dark = false) (hsilence : e.silence = .expired) :
    newVerdict r e = (.silent, some .noArrivals) := by
  simp only [newVerdict, hr, hlight, hsilence, Bool.false_eq_true, if_false, if_true]

/-- None of the first three rows of R138 holds, so that the accepted tag decides. -/
structure TagDecides (r : Circuit) (e : Evidence) : Prop where
  readable : r.isUnreadable = false
  light : e.dark = false
  arriving : e.silence ≠ .expired

/-- R138, row 4: no accepted tag. -/
theorem newVerdict_noTag (h : TagDecides r e) (hnone : e.accepted = none) : newVerdict r e = (.pending, none) := by
  simp only [newVerdict, h.readable, h.light, h.arriving, hnone, Bool.false_eq_true, if_false]

/-- R138, row 5: the accepted tag is the unequipped one. -/
theorem newVerdict_unequipped (h : TagDecides r e) (hzero : e.accepted = some zeroTag) :
    newVerdict r e = (.silent, some .unequipped) := by
  simp only [newVerdict, h.readable, h.light, h.arriving, hzero, Bool.false_eq_true, if_false, if_true]

/-- R138, row 6: the accepted tag is another one than expected. -/
theorem newVerdict_mismatch {tag : Tag} (h : TagDecides r e) (htag : e.accepted = some tag) (hzero : tag ≠ zeroTag)
    (hother : tag ≠ r.tag) : newVerdict r e = (.broken, some .tagMismatch) := by
  simp only [newVerdict, h.readable, h.light, h.arriving, htag, hzero, Bool.false_eq_true, if_false]
  exact if_pos hother

/-- R94, R138: the verdict that a result of the power judgement gives. -/
def powerVerdict (result : VerdictCause) : CircuitState × Option VerdictCause :=
  (if result = .matched then .confirmed else .degraded, some result)

/-- R138, the last rows: with the expected tag the power judgement decides. -/
theorem newVerdict_judged (h : TagDecides r e) (htag : e.accepted = some r.tag) (hzero : r.tag ≠ zeroTag) :
    newVerdict r e = powerVerdict (judgePower e.power r.reference r.tolerance r.floor) := by
  simp only [newVerdict, h.readable, h.light, h.arriving, htag, hzero, Bool.false_eq_true, if_false, ne_eq,
    not_true_eq_false]
  cases judgePower e.power r.reference r.tolerance r.floor <;> rfl

/-- Settles O23: each row by its equation, and the judgement's result by the verdict it gives. -/
theorem evaluationRows : Obligations.EvaluationRows := by
  unfold Obligations.EvaluationRows
  intro r e
  refine ⟨newVerdict_unreadable, fun hreadable => ?_⟩
  have hr := r.isUnreadable_eq_false_iff.mpr hreadable
  refine ⟨newVerdict_dark hr, newVerdict_noArrivals hr, fun hlight hsilence => ?_⟩
  have hdecides : TagDecides r e := ⟨hr, hlight, hsilence⟩
  refine ⟨newVerdict_noTag hdecides, newVerdict_unequipped hdecides, fun _ => newVerdict_mismatch hdecides, ?_⟩
  rintro tag htag hzero rfl
  rw [newVerdict_judged hdecides htag hzero]
  refine ⟨fun habsent => ?_, fun s p hs hp => ?_⟩
  · rw [judgePower_absent _ _ habsent]
    rfl
  · rw [hs, hp, judgePower_present, apply_ite powerVerdict, apply_ite powerVerdict]
    rfl

end Sys2Proof.Machine
end

section
/-! Settles O33: a directive that a check refuses is answered, and nothing else happens. -/

namespace Sys2Proof.Machine

variable (s : State)

/-! ### The answers of the checks are refusals (R117, R156) -/

/-- R157: the answer of a check, if it fails, is one that raises REFUSED. -/
def OnlyRefuses (o : Option DirectiveAnswer) : Prop := ∀ a, o = some a → a.outcome.isRefusal = true

theorem onlyRefuses_none : OnlyRefuses none := nofun

theorem onlyRefuses_some {a : DirectiveAnswer} (h : a.outcome.isRefusal = true) : OnlyRefuses (some a) := by
  rintro b ⟨⟩
  exact h

theorem onlyRefuses_map {α : Type} (o : Option α) {f : α → DirectiveAnswer} (h : ∀ x, (f x).outcome.isRefusal = true) :
    OnlyRefuses (o.map f) := by
  cases o with
  | none => exact onlyRefuses_none
  | some x => exact onlyRefuses_some (h x)

theorem onlyRefuses_ite {p : Prop} [Decidable p] {o o' : Option DirectiveAnswer} (h : OnlyRefuses o)
    (h' : OnlyRefuses o') : OnlyRefuses (if p then o else o') := by
  split
  · exact h
  · exact h'

theorem State.layoutRefusal_onlyRefuses : OnlyRefuses s.layoutRefusal := by
  unfold State.layoutRefusal
  split
  · exact onlyRefuses_some rfl
  split
  · exact onlyRefuses_none
  · exact onlyRefuses_ite (onlyRefuses_some rfl) <| onlyRefuses_ite (onlyRefuses_some rfl) <|
      onlyRefuses_ite (onlyRefuses_some rfl) onlyRefuses_none
  all_goals exact onlyRefuses_some rfl

theorem State.policyRefusal_onlyRefuses : OnlyRefuses s.policyRefusal :=
  onlyRefuses_ite (onlyRefuses_some rfl) <| onlyRefuses_ite (onlyRefuses_some rfl) onlyRefuses_none

theorem State.loadRefusal_onlyRefuses : OnlyRefuses s.loadRefusal := by
  unfold State.loadRefusal
  dsimp only
  split
  · exact onlyRefuses_some rfl
  split
  · exact onlyRefuses_some rfl
  · exact onlyRefuses_map _ fun _ => rfl

theorem State.dropRefusal_onlyRefuses : OnlyRefuses s.dropRefusal := by
  unfold State.dropRefusal
  refine onlyRefuses_ite (onlyRefuses_some rfl) ?_
  split
  · intro a ha
    split at ha <;> cases ha <;> rfl
  · exact onlyRefuses_ite onlyRefuses_none (onlyRefuses_some rfl)
  all_goals exact onlyRefuses_some rfl

theorem State.openRefusal_onlyRefuses : OnlyRefuses s.openRefusal := by
  refine onlyRefuses_ite (onlyRefuses_some rfl) ?_
  split
  · exact onlyRefuses_some rfl
  · exact onlyRefuses_ite (onlyRefuses_some rfl) <| onlyRefuses_ite (onlyRefuses_some rfl) <|
      onlyRefuses_ite (onlyRefuses_some rfl) <| onlyRefuses_ite (onlyRefuses_some rfl) <|
      onlyRefuses_map _ fun _ => rfl

theorem State.markRefusal_onlyRefuses : OnlyRefuses s.markRefusal := by
  refine onlyRefuses_ite (onlyRefuses_some rfl) ?_
  split
  · exact onlyRefuses_some rfl
  · exact onlyRefuses_ite (onlyRefuses_some rfl) <| onlyRefuses_map _ fun _ => rfl

theorem State.refusedUnless_onlyRefuses (w : WindowState) : OnlyRefuses (s.refusedUnless w) :=
  onlyRefuses_ite onlyRefuses_none (onlyRefuses_some rfl)

/-- R113: ABANDON is refused in NO_LAYOUT and QUIET. -/
theorem State.abandonRefusal_eq :
    s.abandonRefusal = if s.window.state = .noLayout ∨ s.window.state = .quiet then some refusedWindow else none := by
  unfold State.abandonRefusal
  split <;> simp [*]

theorem State.abandonRefusal_onlyRefuses : OnlyRefuses s.abandonRefusal := by
  rw [State.abandonRefusal_eq]
  exact onlyRefuses_ite (onlyRefuses_some rfl) onlyRefuses_none

theorem State.restoreRefusal_onlyRefuses : OnlyRefuses s.restoreRefusal := by
  refine onlyRefuses_ite (onlyRefuses_some rfl) <| onlyRefuses_ite (onlyRefuses_some rfl) <|
    onlyRefuses_ite (onlyRefuses_some rfl) <| onlyRefuses_ite (onlyRefuses_some rfl) ?_
  split
  · exact onlyRefuses_some rfl
  · exact onlyRefuses_ite (onlyRefuses_some rfl) onlyRefuses_none

/-- R156, R157: whatever the kind, a check that fails gives a refusal. -/
theorem refusalOf_onlyRefuses (k : DirectiveKind) : OnlyRefuses (refusalOf k s) := by
  cases k with
  | layout => exact s.layoutRefusal_onlyRefuses
  | setPolicy => exact s.policyRefusal_onlyRefuses
  | load => exact s.loadRefusal_onlyRefuses
  | drop => exact s.dropRefusal_onlyRefuses
  | openWindow => exact s.openRefusal_onlyRefuses
  | mark => exact s.markRefusal_onlyRefuses
  | abandon => exact s.abandonRefusal_onlyRefuses
  | close | accept | recheck => exact s.refusedUnless_onlyRefuses _
  | restore => exact s.restoreRefusal_onlyRefuses

/-! ### A refused directive is answered (R156, R157) -/

variable {s} {k : DirectiveKind} {a : DirectiveAnswer}

/-- R156: a directive in hand that a check refuses is answered with the check's answer. -/
theorem State.runDirective_refused {refusal : State → Option DirectiveAnswer} {effect : State → State}
    (h : s.inHand k) (hr : refusal s = some a) : s.runDirective k refusal effect = s.answerDirective a := by
  obtain ⟨-, hstep, hkind⟩ := h
  simp [State.runDirective, hstep, hkind, hr]

theorem State.runLoad_refused (h : s.inHand .load) (hr : s.loadRefusal = some a) :
    s.runLoad = s.answerDirective a := by
  obtain ⟨-, hstep, hkind⟩ := h
  simp [State.runLoad, hstep, hkind, hr]

theorem exec_directive_refused {c : Instr} {refusal : State → Option DirectiveAnswer} {effect : State → State}
    (hexec : exec c s = live (fun s => s.runDirective k refusal effect) s) (h : s.inHand k)
    (hr : refusal s = some a) : exec c s = .next (s.answerDirective a).endEvent := by
  rw [hexec, live_running s _ h.1, State.runDirective_refused h hr]

/-- R156, R168: the event of a directive in hand, of any kind, that a check refuses. -/
theorem exec_refused (h : s.inHand k) (hr : refusalOf k s = some a) :
    exec (commandOf k) s = .next (s.answerDirective a).endEvent := by
  cases k with
  | load => exact (live_running s State.runLoad h.1).trans (by rw [State.runLoad_refused h hr])
  | _ => exact exec_directive_refused rfl h hr

variable (s)

/-- R157: an outcome decided requests the first completion write. -/
theorem State.answerDirective_requests (a : DirectiveAnswer) : (s.answerDirective a).arbiter.directive ≠ none := by
  unfold State.answerDirective
  dsimp only
  generalize (if a.outcome.isRefusal then s.raise .refused else s) = v
  cases hleft : v.directive.completionWords a with
  | nil => exact absurd hleft (v.directive.completionWords_ne_nil a)
  | cons head rest => exact nofun

/-- R157: a refusal changes the Directive Unit and its request, and raises REFUSED. -/
theorem State.answerDirective_refusal (a : DirectiveAnswer) (h : a.outcome.isRefusal = true) :
    s.answerDirective a = { s with
      directive := { s.directive with step := .completing (s.directive.completionWords a) s.directive.chain.length }
      arbiter := { s.arbiter with directive := (s.answerDirective a).arbiter.directive }
      report := (s.raise .refused).report } := by
  conv_lhs => rw [State.answerDirective_frame, State.answerDirective_step]
  rw [if_pos h]

/-- Section 11.1: the mode codes. -/
theorem modeOf_isNone (n : Nat) : (modeOf n).isNone = true ↔ n ≠ 1 ∧ n ≠ 2 := by
  unfold modeOf
  split <;> simp_all

/-- Settles O33: `exec_refused` and what a refusal changes; then the checks of the kinds that no other statement has. -/
theorem refusedDirectiveChangesNothing : Obligations.RefusedDirectiveChangesNothing := by
  unfold Obligations.RefusedDirectiveChangesNothing
  refine ⟨fun k s a hand hr => ?_, fun s hlaid => ⟨rfl, rfl, rfl, ?_, ?_⟩⟩
  · exact ⟨_, exec_refused hand hr, s.answerDirective_refusal a (refusalOf_onlyRefuses s k a hr),
      s.answerDirective_requests a⟩
  · refine s.abandonRefusal_eq.trans (ite_congr (propext ?_) (fun _ => rfl) fun _ => rfl)
    exact or_iff_right hlaid
  · rw [← bits_eq_extractLsb']
    simp only [← modeOf_isNone]
    show s.policyRefusal = _
    unfold State.policyRefusal
    rw [ite_not]
    rfl

end Sys2Proof.Machine
end

section
/-! Settles O28: the close of a window, by CLOSE or by the deadline's expiry. -/

namespace Sys2Proof.Machine

variable {s u v t : State}

/-! ### Marks of the Window Controller (R98) -/

/-- R98: the window flags change with the WINDOW mark and the summary mark, and nothing else does. -/
theorem State.setWindowFlags_frame (a b : Bool) :
    s.setWindowFlags a b = { s with
      window := { s.window with overrun := a, overtime := b }
      report := { s.report with
        windowOwed := (s.setWindowFlags a b).report.windowOwed, wanted := (s.setWindowFlags a b).report.wanted } } := by
  unfold State.setWindowFlags
  split
  · rename_i h
    obtain ⟨rfl, rfl⟩ := h
    rfl
  · rfl

/-- R16: no change of a circuit's state changes the pending causes or their enables. -/
theorem State.setCircuitState_causes (c : Nat) (st : CircuitState) :
    (s.setCircuitState c st).report.pending = s.report.pending
      ∧ (s.setCircuitState c st).report.enables = s.report.enables := by
  obtain ⟨m, ct, owed, wanted, b, hs⟩ := s.setCircuitState_frame c st
  rw [hs]
  exact ⟨rfl, rfl⟩

/-! ### The close (R108) -/

/-- The HELD circuits, in ascending order. -/
def State.heldCircuits (s : State) : List Nat := s.circuitsWhere fun r => r.state = .held

theorem State.mem_heldCircuits (c : Nat) : c ∈ s.heldCircuits ↔ c < 512 ∧ (s.circuit c).state = .held := by
  simp [State.heldCircuits, State.circuitsWhere, Config.circuits]

theorem State.heldCircuits_nodup : s.heldCircuits.Nodup := List.nodup_range.filter _

/-- R108: every HELD circuit has become PENDING. -/
def State.heldPended (s : State) : State := s.forEach s.heldCircuits fun s c => s.setCircuitState c .pending

theorem State.heldPended_storeReport : StoreReportOnly s s.heldPended := by
  unfold State.heldPended
  generalize s.heldCircuits = l
  exact State.forEach_induct s (StoreReportOnly s) (fun s c => s.setCircuitState c .pending) l
    (fun v c _ h => StoreReportOnly.after (v.setCircuitState_storeReport c _) h) ⟨_, _, rfl⟩

theorem State.heldPended_causes : s.heldPended.report.pending = s.report.pending := by
  unfold State.heldPended
  generalize s.heldCircuits = l
  exact State.forEach_keeps s (fun v => v.report.pending) (fun s c => s.setCircuitState c .pending)
    (fun _ c => (State.setCircuitState_causes c .pending).1) l

theorem State.heldPended_circuit (c : Nat) :
    s.heldPended.circuit c =
      if c < 512 ∧ (s.circuit c).state = .held then { s.circuit c with state := .pending } else s.circuit c := by
  simp only [← State.mem_heldCircuits]
  exact State.forEach_circuit (fun s c => s.setCircuitState c .pending) (fun r => { r with state := .pending })
    (fun v c k => v.setCircuitState_circuit c .pending k) s.heldCircuits State.heldCircuits_nodup c

/-- R16, R108: and its CIRCUIT report is owed. -/
theorem State.heldPended_owes (c : Nat) (hc : c < 512) (h : (s.circuit c).state = .held) :
    Table.get false s.heldPended.report.owed c = true := by
  have hmem := (State.mem_heldCircuits c).mpr ⟨hc, h⟩
  have hheld : ∀ k ∈ s.heldCircuits, (s.circuit k).state = .held := fun k hk => ((State.mem_heldCircuits k).mp hk).2
  have hnodup := State.heldCircuits_nodup (s := s)
  unfold State.heldPended
  generalize s.heldCircuits = l at hmem hheld hnodup ⊢
  exact State.forEach_owes (fun s c => s.setCircuitState c .pending) (fun r => r.state = .held)
    (fun v c k hk => (v.setCircuitState_circuit c .pending k).trans (if_neg hk))
    (fun v c hr => v.setCircuitState_owes c .pending (by rw [hr]; decide))
    (fun v c k => v.setCircuitState_owed c .pending k) l hnodup hheld c hmem

/-- R98, R108: a close changes the circuits, the window's state and timers, and marks of the Report Unit. -/
theorem State.closeWindow_frame (hw : s.window.state = .opened) :
    s.closeWindow = { s with
      store := s.heldPended.store
      window := { s.window with
        state := .settling, deadline := .stopped, settle := .running (1000 * s.window.settleTime) }
      report := { s.heldPended.report with windowOwed := true, wanted := true, assured := false } } := by
  have hpended := State.heldPended_storeReport (s := s)
  unfold State.heldPended State.heldCircuits at hpended ⊢
  unfold State.closeWindow
  generalize s.forEach _ _ = v at hpended ⊢
  obtain ⟨st, rp, rfl⟩ := hpended
  dsimp only
  rw [State.setWindowState_frame, State.setWindowState_owes _ _ (by simp [hw])]
  simp [State.assuredCondition]

/-- From `u` to `t` the window closes (R108). -/
structure WindowClosed (u t : State) : Prop where
  window : t.window = { u.window with
    state := .settling, deadline := .stopped, settle := .running (1000 * u.window.settleTime) }
  windowOwed : t.report.windowOwed = true
  held : ∀ c, c < 512 → (u.circuit c).state = .held →
    t.circuit c = { u.circuit c with state := .pending } ∧ Table.get false t.report.owed c = true
  others : ∀ c, (512 ≤ c ∨ (u.circuit c).state ≠ .held) → t.circuit c = u.circuit c
  owners : ∀ k, (t.mapEntry k).owner = (u.mapEntry k).owner
  rest : t.journal = u.journal ∧ t.trace = u.trace ∧ t.sweep = u.sweep ∧ t.verdict = u.verdict ∧ t.pass = u.pass
  causes : t.report.pending = u.report.pending

theorem State.closeWindow_closed (hw : u.window.state = .opened) : WindowClosed u u.closeWindow := by
  have howners := (u.closeWindow_moves (c := .close)).kept.owners (by rintro (h | h | h | h) <;> cases h)
  have hcircuit := State.heldPended_circuit (s := u)
  have howes := State.heldPended_owes (s := u)
  have hcauses := State.heldPended_causes (s := u)
  rw [State.closeWindow_frame hw] at howners ⊢
  generalize u.heldPended = v at *
  refine ⟨rfl, rfl, fun c hc h => ⟨(hcircuit c).trans (if_pos ⟨hc, h⟩), howes c hc h⟩, fun c hc => ?_, howners,
    ⟨rfl, rfl, rfl, rfl, rfl⟩, hcauses⟩
  exact (hcircuit c).trans (if_neg fun ⟨hlt, hheld⟩ => hc.elim (Nat.not_le.mpr hlt) (absurd hheld))

/-! ### The two events (R107) -/

theorem exec_close (h : s.inHand .close) (hw : s.window.state = .opened) :
    exec .close s = .next (s.closeWindow.answerDirective ⟨.done, 0⟩).endEvent :=
  exec_directive_done s (refusal := fun s => s.refusedUnless .opened) rfl h (if_pos hw)

/-- R107: what the deadline's expiry does before the window closes. -/
def State.overtimeNoted (s : State) : State := (s.setWindowFlags s.window.overrun true).raise .overtime

theorem exec_deadlineExpiry {n : Nat} (hr : s.inReset = false) (hw : s.window.state = .opened)
    (hd : s.window.deadline = .running n) :
    exec .deadlineExpiry s = .next s.overtimeNoted.closeWindow.endEvent := by
  refine (live_running s State.expireDeadline hr).trans ?_
  simp [State.expireDeadline, hw, hd, State.overtimeNoted]

theorem State.overtimeNoted_frame :
    s.overtimeNoted = { s with
      window := { s.window with overtime := true }, report := s.overtimeNoted.report } := by
  unfold State.overtimeNoted
  rw [State.raise_frame, State.setWindowFlags_frame]

/-- R107, R169: OVERTIME is raised. -/
theorem State.overtimeNoted_pends (h : s.report.enables.getLsbD 1 = true) :
    s.overtimeNoted.report.pending.getLsbD 1 = true := by
  refine State.raise_pends .overtime ?_
  rw [State.setWindowFlags_frame]
  exact h

/-- Settles O28: `closeWindow_closed`, for an expiry after the flag and the cause. -/
theorem windowCloses : Obligations.WindowCloses := by
  unfold Obligations.WindowCloses
  rintro s i hw (⟨rfl, hand⟩ | ⟨rfl, hreset, n, hd⟩)
  · have hclosed := State.closeWindow_closed hw
    refine ⟨_, exec_close hand hw, ?_⟩
    rw [State.answerDirective_plain _ _ rfl]
    generalize s.closeWindow = t at hclosed ⊢
    obtain ⟨hjournal, htrace, hsweep, hverdict, hpass⟩ := hclosed.rest
    refine ⟨?_, hclosed.windowOwed, hclosed.held, hclosed.others, hclosed.owners, hjournal, htrace, hsweep, hverdict,
      hpass, nofun, fun _ => hclosed.causes⟩
    simpa using hclosed.window
  · have hframe := State.overtimeNoted_frame (s := s)
    have hpends := State.overtimeNoted_pends (s := s)
    refine ⟨_, exec_deadlineExpiry hreset hw hd, ?_⟩
    generalize s.overtimeNoted = u at hframe hpends ⊢
    have hclosed : WindowClosed u u.closeWindow := State.closeWindow_closed (by rw [hframe]; exact hw)
    generalize u.closeWindow = t at hclosed ⊢
    have hstore : u.store = s.store := by rw [hframe]
    have hheld := hclosed.held
    have hothers := hclosed.others
    have howners := hclosed.owners
    have hwindow := hclosed.window
    obtain ⟨hjournal, htrace, hsweep, hverdict, hpass⟩ := hclosed.rest
    simp only [State.circuit_of_store hstore] at hheld hothers
    simp only [State.mapEntry_of_store hstore] at howners
    refine ⟨?_, hclosed.windowOwed, hheld, hothers, howners, ?_, ?_, ?_, ?_, ?_, fun _ he => ?_, nofun⟩
    · rw [hwindow, hframe]
      simp
    · rw [hjournal, hframe]
    · rw [htrace, hframe]
    · rw [hsweep, hframe]
    · rw [hverdict, hframe]
    · rw [hpass, hframe]
    · rw [hclosed.causes]
      exact hpends he

end Sys2Proof.Machine
end

section
/-! The circuits that an OPEN or a MARK names (R103 to R105): their list by its bits (R172), the first that a check
finds, and what becomes of each. -/

namespace Sys2Proof.Machine

/-! ### Lists (R172) -/

/-- R172: the list positions of a continuation slot, two to a word. -/
theorem continuationList_eq (chain : List (List Word)) (n : Nat) :
    continuationList chain n = (List.range 14).map fun p =>
      ((chainWord chain n (1 + p / 2)).extractLsb' (16 * (p % 2)) 16).toNat := by
  simp [List.range_succ, continuationList, halves, bits_eq_extractLsb']

theorem map_range_take {α : Type} (f : Nat → α) {n m : Nat} (h : n ≤ m) :
    ((List.range m).map f).take n = (List.range n).map f := by
  rw [← List.map_take, List.take_range, Nat.min_eq_left h]

section
variable {p : Nat → Bool} {l : List Nat} {i : Nat}

/-- The check of a list answers the position of its first member that fails. -/
theorem firstPosition_first (hi : i < l.length) (hp : p (l.getD i 0) = true)
    (hfirst : ∀ q, q < i → p (l.getD q 0) = false) : firstPosition p l = some (i + 1) := by
  have hfind : l.findIdx? p = some i := by
    refine List.findIdx?_eq_some_iff_getElem.mpr ⟨hi, ?_, fun j hj => ?_⟩
    · rwa [← List.getD_eq_getElem _ 0]
    · rw [← List.getD_eq_getElem _ 0, hfirst j hj]
      decide
  rw [firstPosition, hfind]
  rfl

theorem find?_first (hi : i < l.length) (hp : p (l.getD i 0) = true)
    (hfirst : ∀ q, q < i → p (l.getD q 0) = false) : l.find? p = some (l.getD i 0) := by
  refine List.find?_eq_some_iff_getElem.mpr ⟨hp, i, hi, (List.getD_eq_getElem _ 0 hi).symm, fun j hj => ?_⟩
  rw [← List.getD_eq_getElem _ 0, hfirst j hj]
  rfl

end

variable {s : State}

/-- R100, R105: the first circuit of a list that is EMPTY. -/
theorem State.firstEmpty_first {l : List Nat} {i : Nat} (hi : i < l.length)
    (hempty : (s.circuit (l.getD i 0)).state = .empty)
    (hfirst : ∀ q, q < i → (s.circuit (l.getD q 0)).state ≠ .empty) : s.firstEmpty l = some (l.getD i 0) :=
  find?_first hi (decide_eq_true hempty) fun q hq => decide_eq_false (hfirst q hq)

theorem State.firstEmpty_eq_none {l : List Nat} :
    s.firstEmpty l = none ↔ ∀ c ∈ l, (s.circuit c).state ≠ .empty := by
  simp [State.firstEmpty]

/-- R100, R105: the check of the circuit numbers of a list passes. -/
theorem firstPosition_numbers {l : List Nat} (h : ∀ c ∈ l, c < 512) :
    firstPosition (fun c => decide (Config.circuits ≤ c)) l = none :=
  firstPosition_eq_none.mpr fun c hc => decide_eq_false (Nat.not_le.mpr (h c hc))

/-! ### An effect on each of some circuits, that may be named more than once -/

/-- An effect that changes one record by what it was, and no further when made again, made for each circuit of a list
changes each of their records so. -/
theorem State.forEach_circuit_again (f : State → Nat → State) (g : Circuit → Circuit) (hg : ∀ r, g (g r) = g r)
    (hf : ∀ t c k, (f t c).circuit k = if k = c then g (t.circuit c) else t.circuit k) (l : List Nat) (k : Nat) :
    (s.forEach l f).circuit k = if k ∈ l then g (s.circuit k) else s.circuit k := by
  induction l generalizing s with
  | nil => rfl
  | cons c rest ih =>
    refine (ih (s := f s c)).trans ?_
    rw [hf]
    by_cases hk : k = c
    · subst hk
      simp [hg]
    · simp [hk]

/-- An effect that makes a CIRCUIT report owed for a circuit of one kind, made for each circuit of a list, makes it owed
for those of the kind. -/
theorem State.forEach_owes_again (f : State → Nat → State) (p : Circuit → Prop)
    (hf : ∀ t c k, k ≠ c → (f t c).circuit k = t.circuit k)
    (howes : ∀ t c, p (t.circuit c) → Table.get false (f t c).report.owed c = true)
    (hkeep : ∀ t c k, Table.get false t.report.owed k = true → Table.get false (f t c).report.owed k = true)
    (l : List Nat) {k : Nat} (hk : k ∈ l) (hp : p (s.circuit k)) :
    Table.get false (s.forEach l f).report.owed k = true := by
  induction l generalizing s with
  | nil => exact absurd hk List.not_mem_nil
  | cons c rest ih =>
    by_cases hkc : k = c
    · subst hkc
      exact State.forEach_induct (f s k) (fun t => Table.get false t.report.owed k = true) f rest
        (fun t j _ => hkeep t j k) (howes s k hp)
    · exact ih (s := f s c) (List.mem_of_ne_of_mem hkc hk) (by rwa [hf s c k hkc])

/-! ### One circuit named (R103, R104) -/

/-- From `u` to `t` only the Circuit Store, the work set and the marks of the Report Unit change. -/
def WorkOnly (u t : State) : Prop :=
  ∃ st rp ws, t = { u with store := st, report := rp, window := { u.window with workSet := ws } }

theorem WorkOnly.after {u v t : State} (h' : WorkOnly v t) (h : WorkOnly u v) : WorkOnly u t := by
  obtain ⟨st, rp, ws, rfl⟩ := h
  obtain ⟨st', rp', ws', rfl⟩ := h'
  exact ⟨st', rp', ws', rfl⟩

theorem StoreReportOnly.workOnly {u t : State} (h : StoreReportOnly u t) : WorkOnly u t := by
  obtain ⟨st, rp, rfl⟩ := h
  exact ⟨_, _, _, rfl⟩

theorem WorkOnly.forEach {u : State} (f : State → Nat → State) (h : ∀ v k, WorkOnly v (f v k)) (l : List Nat) :
    WorkOnly u (u.forEach l f) :=
  State.forEach_induct u (WorkOnly u) f l (fun v k _ hv => (h v k).after hv) ⟨_, _, _, rfl⟩

/-- R103: the record of a circuit named: one in SETTLED, DRIFTED or FAULTED takes that as prior state and is HELD. -/
def Circuit.named (r : Circuit) : Circuit := r.state.outside.elim r fun o => { r with prior := some o, state := .held }

theorem Circuit.named_inside {r : Circuit} (h : r.state.outside = none) : r.named = r := by
  rw [Circuit.named, h]
  rfl

theorem Circuit.named_outside {r : Circuit} {o : OutsideState} (h : r.state.outside = some o) :
    r.named = { r with prior := some o, state := .held } := by
  rw [Circuit.named, h]
  rfl

theorem Circuit.named_again (r : Circuit) : r.named.named = r.named := by
  cases h : r.state.outside with
  | none => rw [Circuit.named_inside h, Circuit.named_inside h]
  | some o =>
    rw [Circuit.named_outside h]
    exact Circuit.named_inside rfl

/-- R103, as the statements say it. -/
theorem Circuit.named_eq (r : Circuit) :
    r.named = { r with
      prior := if r.state.outside ≠ none then r.state.outside else r.prior
      state := if r.state.outside ≠ none then .held else r.state } := by
  cases h : r.state.outside with
  | none => simp [Circuit.named_inside h]
  | some o => simp [Circuit.named_outside h]

variable (s) (c : Nat)

theorem State.holdNamed_outside {o : OutsideState} (h : (s.circuit c).state.outside = some o) :
    s.holdNamed c
      = ((s.setWorkMember c true).mapCircuit c fun r => { r with prior := some o }).setCircuitState c .held := by
  simp only [State.holdNamed, h]

theorem State.holdNamed_inside (h : (s.circuit c).state.outside = none) : s.holdNamed c = s.setWorkMember c true := by
  simp only [State.holdNamed, h]

theorem State.setWorkMember_store (b : Bool) : (s.setWorkMember c b).store = s.store := by
  rw [State.setWorkMember_frame]

theorem State.setWorkMember_workOnly (b : Bool) : WorkOnly s (s.setWorkMember c b) := by
  rw [State.setWorkMember_frame]
  exact ⟨_, _, _, rfl⟩

theorem State.setWorkMember_owed (b : Bool) : (s.setWorkMember c b).report.owed = s.report.owed := by
  rw [State.setWorkMember_frame]

theorem State.holdNamed_workOnly : WorkOnly s (s.holdNamed c) := by
  have hjoined := s.setWorkMember_workOnly c true
  cases h : (s.circuit c).state.outside with
  | none => rwa [s.holdNamed_inside c h]
  | some o =>
    rw [s.holdNamed_outside c h]
    exact WorkOnly.after (State.setCircuitState_storeReport _ c .held).workOnly <|
      WorkOnly.after (State.putCircuit_storeReport _ c _).workOnly hjoined

theorem State.holdNamed_circuit (k : Nat) :
    (s.holdNamed c).circuit k = if k = c then (s.circuit c).named else s.circuit k := by
  have hjoined := State.circuit_of_store (s.setWorkMember_store c true)
  cases h : (s.circuit c).state.outside with
  | none =>
    rw [s.holdNamed_inside c h, hjoined, Circuit.named_inside h]
    split
    · rename_i hk
      rw [hk]
    · rfl
  | some o =>
    rw [s.holdNamed_outside c h, Circuit.named_outside h]
    by_cases hk : k = c
    · subst hk
      simp [hjoined]
    · simp [hk, hjoined]

/-- R104: a circuit named is in the work set. -/
theorem State.holdNamed_member (k : Nat) :
    Table.get false (s.holdNamed c).window.workSet k = (Table.get false s.window.workSet k || decide (k = c)) := by
  have hjoined := s.setWorkMember_member c true k
  have hwindow : (s.holdNamed c).window = (s.setWorkMember c true).window := by
    cases h : (s.circuit c).state.outside with
    | none => rw [s.holdNamed_inside c h]
    | some o =>
      rw [s.holdNamed_outside c h]
      exact (State.setCircuitState_sweepsOn _ c .held).window
  rw [hwindow, hjoined]
  by_cases hk : k = c <;> simp [hk]

/-- R16, R103: a CIRCUIT report is owed for a circuit that becomes HELD. -/
theorem State.holdNamed_owes (h : (s.circuit c).state.outside ≠ none) :
    Table.get false (s.holdNamed c).report.owed c = true := by
  obtain ⟨o, ho⟩ := Option.ne_none_iff_exists'.mp h
  rw [s.holdNamed_outside c ho]
  refine State.setCircuitState_owes _ c .held fun hheld => ?_
  simp only [State.mapCircuit_circuit, if_true, State.circuit_of_store (s.setWorkMember_store c true)] at hheld
  rw [hheld] at ho
  cases ho

theorem State.holdNamed_owed (k : Nat) (h : Table.get false s.report.owed k = true) :
    Table.get false (s.holdNamed c).report.owed k = true := by
  rw [← s.setWorkMember_owed c true] at h
  cases ho : (s.circuit c).state.outside with
  | none => rwa [s.holdNamed_inside c ho]
  | some o =>
    rw [s.holdNamed_outside c ho]
    exact State.setCircuitState_owed _ c .held k h

/-- R104: naming each circuit of a list puts those of the list, and no others, into the work set. -/
theorem State.forEach_member (f : State → Nat → State)
    (hf : ∀ t c k, Table.get false (f t c).window.workSet k = (Table.get false t.window.workSet k || decide (k = c)))
    (l : List Nat) (k : Nat) :
    Table.get false (s.forEach l f).window.workSet k = (Table.get false s.window.workSet k || decide (k ∈ l)) := by
  induction l generalizing s with
  | nil => simp [State.forEach]
  | cons c rest ih =>
    refine (ih (f s c)).trans ?_
    rw [hf, Bool.or_assoc, ← Bool.decide_or]
    simp only [List.mem_cons]

end Sys2Proof.Machine
end

section
/-! Settles O27: a MARK (R105). -/

namespace Sys2Proof.Machine

variable (s : State) (c : Nat)

/-! ### One circuit marked -/

/-- R105: the record of a circuit marked: one outside the window joins it with its part in the last one forgotten. -/
def Circuit.marked (r : Circuit) : Circuit :=
  if r.state.outside ≠ none then
    { r with
      prior := r.state.outside, changeCount := 0, undeclared := false, redeclared := false, state := .held }
  else r

theorem Circuit.marked_inside {r : Circuit} (h : r.state.outside = none) : r.marked = r := if_neg (not_not_intro h)

theorem Circuit.marked_outside {r : Circuit} (h : r.state.outside ≠ none) :
    r.marked = { r with
      prior := r.state.outside, changeCount := 0, undeclared := false, redeclared := false, state := .held } :=
  if_pos h

theorem Circuit.marked_again (r : Circuit) : r.marked.marked = r.marked := by
  by_cases h : r.state.outside = none
  · rw [Circuit.marked_inside h, Circuit.marked_inside h]
  · rw [Circuit.marked_outside h]
    exact Circuit.marked_inside rfl

/-- R105: the counts and marks of a circuit's part in the last window are cleared. -/
def Circuit.changesForgotten (r : Circuit) : Circuit :=
  { r with changeCount := 0, undeclared := false, redeclared := false }

theorem Circuit.changesForgotten_named {r : Circuit} (h : r.state.outside ≠ none) :
    r.changesForgotten.named = r.marked := by
  obtain ⟨o, ho⟩ := Option.ne_none_iff_exists'.mp h
  rw [Circuit.marked_outside h, ho]
  exact Circuit.named_outside ho

theorem State.markNamed_outside (h : (s.circuit c).state.outside ≠ none) :
    s.markNamed c = (s.mapCircuit c Circuit.changesForgotten).holdNamed c := if_pos (Option.isSome_iff_ne_none.mpr h)

theorem State.markNamed_inside (h : (s.circuit c).state.outside = none) : s.markNamed c = s.holdNamed c :=
  if_neg (by simp [h])

theorem State.markNamed_circuit (k : Nat) :
    (s.markNamed c).circuit k = if k = c then (s.circuit c).marked else s.circuit k := by
  by_cases h : (s.circuit c).state.outside = none
  · rw [s.markNamed_inside c h, State.holdNamed_circuit, Circuit.named_inside h, Circuit.marked_inside h]
  · rw [s.markNamed_outside c h, State.holdNamed_circuit, State.mapCircuit_circuit, if_pos rfl,
      Circuit.changesForgotten_named h, State.mapCircuit_circuit]
    split <;> rfl

theorem State.markNamed_workOnly : WorkOnly s (s.markNamed c) := by
  by_cases h : (s.circuit c).state.outside = none
  · rw [s.markNamed_inside c h]
    exact s.holdNamed_workOnly c
  · rw [s.markNamed_outside c h]
    exact WorkOnly.after (State.holdNamed_workOnly _ c) (s.putCircuit_storeReport c _).workOnly

theorem State.markNamed_member (k : Nat) :
    Table.get false (s.markNamed c).window.workSet k = (Table.get false s.window.workSet k || decide (k = c)) := by
  by_cases h : (s.circuit c).state.outside = none
  · rw [s.markNamed_inside c h, State.holdNamed_member]
  · rw [s.markNamed_outside c h, State.holdNamed_member]
    rfl

theorem State.markNamed_owes (h : (s.circuit c).state.outside ≠ none) :
    Table.get false (s.markNamed c).report.owed c = true := by
  rw [s.markNamed_outside c h]
  refine State.holdNamed_owes _ c ?_
  simpa [Circuit.changesForgotten] using h

theorem State.markNamed_owed (k : Nat) (h : Table.get false s.report.owed k = true) :
    Table.get false (s.markNamed c).report.owed k = true := by
  by_cases ho : (s.circuit c).state.outside = none
  · rw [s.markNamed_inside c ho]
    exact s.holdNamed_owed c k h
  · rw [s.markNamed_outside c ho]
    exact State.holdNamed_owed _ c k h

/-! ### The circuits of the list -/

theorem State.acceptMark_workOnly : WorkOnly s s.acceptMark :=
  WorkOnly.forEach State.markNamed State.markNamed_workOnly (markList s.directive.chain)

theorem State.acceptMark_circuit (k : Nat) :
    s.acceptMark.circuit k = if k ∈ markList s.directive.chain then (s.circuit k).marked else s.circuit k :=
  State.forEach_circuit_again State.markNamed Circuit.marked Circuit.marked_again State.markNamed_circuit
    (markList s.directive.chain) k

theorem State.acceptMark_member (k : Nat) :
    Table.get false s.acceptMark.window.workSet k
      = (Table.get false s.window.workSet k || decide (k ∈ markList s.directive.chain)) :=
  s.forEach_member State.markNamed State.markNamed_member (markList s.directive.chain) k

theorem State.acceptMark_owes {k : Nat} (hk : k ∈ markList s.directive.chain)
    (h : (s.circuit k).state.outside ≠ none) : Table.get false s.acceptMark.report.owed k = true :=
  State.forEach_owes_again State.markNamed (fun r => r.state.outside ≠ none)
    (fun v c k hkc => (v.markNamed_circuit c k).trans (if_neg hkc)) State.markNamed_owes State.markNamed_owed
    (markList s.directive.chain) hk h

/-! ### The checks (R105) -/

/-- R172: the count of a MARK by its bits. -/
theorem markCount_eq (chain : List (List Word)) :
    markCount chain = ((chainWord chain 0 1).extractLsb' 0 8).toNat := bits_eq_extractLsb' _ 0 8

/-- R172: the 41 list positions of a MARK, the first in word 1's high half. -/
theorem markHalves_eq (chain : List (List Word)) :
    [bits (chainWord chain 0 1) 16 16] ++ halves (chainWord chain 0 2) ++ halves (chainWord chain 0 3)
        ++ halves (chainWord chain 0 4) ++ halves (chainWord chain 0 5) ++ halves (chainWord chain 0 6)
        ++ halves (chainWord chain 0 7) ++ continuationList chain 1 ++ continuationList chain 2
      = (List.range 41).map fun p =>
        ((if p < 13 then chainWord chain 0 (1 + (p + 1) / 2)
          else chainWord chain (1 + (p - 13) / 14) (1 + (p - 13) % 14 / 2)).extractLsb'
            (16 * ((p + 1) % 2)) 16).toNat := by
  simp [List.range_succ, continuationList_eq, halves, bits_eq_extractLsb']

theorem markList_eq {chain : List (List Word)} (h : markCount chain ≤ 40) :
    markList chain = (List.range (markCount chain)).map fun p =>
      ((if p < 13 then chainWord chain 0 (1 + (p + 1) / 2)
        else chainWord chain (1 + (p - 13) / 14) (1 + (p - 13) % 14 / 2)).extractLsb'
          (16 * ((p + 1) % 2)) 16).toNat := by
  unfold markList
  dsimp only
  rw [markHalves_eq, map_range_take _ (Nat.le_succ_of_le h)]

/-- R105: the first check that a MARK fails gives the answer. -/
theorem State.markRefusal_uncounted (h : ¬ (1 ≤ markCount s.directive.chain ∧ markCount s.directive.chain ≤ 40)) :
    s.markRefusal = some ⟨.refusedRange, 0⟩ := if_pos (by omega)

theorem State.markRefusal_counted (h : 1 ≤ markCount s.directive.chain ∧ markCount s.directive.chain ≤ 40) :
    s.markRefusal =
      match firstPosition (fun c => decide (Config.circuits ≤ c)) (markList s.directive.chain) with
      | some p => some ⟨.refusedRange, p⟩
      | none =>
        if s.window.state ≠ .opened then some refusedWindow
        else (s.firstEmpty (markList s.directive.chain)).map fun c => ⟨.refusedState, c⟩ := if_neg (by omega)

/-- Settles O27: the marked circuits one by one, the checks in order, and the list by its bits. -/
theorem markExecuted : Obligations.MarkExecuted := by
  unfold Obligations.MarkExecuted
  refine ⟨fun s hand hrefusal => ?_, fun s _ => ?_, fun chain => ?_⟩
  · have howners := (s.acceptMark_moves (c := .mark)).kept.owners (by rintro (h | h | h | h) <;> cases h)
    have hcircuit := s.acceptMark_circuit
    have hmember := s.acceptMark_member
    have howes := fun k => s.acceptMark_owes (k := k)
    obtain ⟨st, rp, ws, hframe⟩ := s.acceptMark_workOnly
    refine ⟨_, exec_directive_done s rfl hand hrefusal, ?_⟩
    rw [State.answerDirective_plain _ _ rfl]
    generalize s.acceptMark = t at *
    refine ⟨fun c => (hcircuit c).trans ?_, hmember, howes, ?_, howners, ?_⟩
    · unfold Circuit.marked
      by_cases hc : c ∈ markList s.directive.chain <;> simp [hc]
    · rw [hframe]
    · rw [hframe]
      exact ⟨rfl, rfl, rfl, rfl, rfl⟩
  · rw [← markCount_eq]
    dsimp only
    refine ⟨s.markRefusal_uncounted, fun p hcount hp hbad hfirst => ?_, fun hcount hnumbers => ⟨fun hw => ?_, fun hw =>
      ⟨fun p hp hempty hfirst => ?_, fun hloaded => ?_⟩⟩⟩
    all_goals rw [s.markRefusal_counted hcount]
    · rw [firstPosition_first hp (decide_eq_true hbad) fun q hq => decide_eq_false (Nat.not_le.mpr (hfirst q hq))]
    all_goals rw [firstPosition_numbers hnumbers]
    · exact if_pos hw
    · exact (if_neg (not_not_intro hw)).trans (by rw [State.firstEmpty_first hp hempty hfirst]; rfl)
    · exact (if_neg (not_not_intro hw)).trans (by rw [State.firstEmpty_eq_none.mpr hloaded]; rfl)
  · rw [← markCount_eq]
    exact markList_eq

end Sys2Proof.Machine
end

section
/-! Settles O26: an OPEN (R100 to R103). -/

namespace Sys2Proof.Machine

variable (s : State)

/-! ### The loaded circuits (R102) -/

/-- R91, R102: the record of a loaded circuit as an OPEN captures it, the evidence of the channels being `ev`. -/
def Circuit.captured (ev : Nat → Evidence) (r : Circuit) : Circuit :=
  { r with
    reference := (r.channel.elim {} ev).power
    entryCondition := some (entryConditionOf (r.channel.elim {} ev) r.tag)
    changeCount := 0, undeclared := false, redeclared := false }

/-- R102: the evidence stays as it is while the circuits are captured one after another. -/
theorem State.captureAll_eq (ev : Nat → Evidence) (h : s.evidenceOf = ev) (l : List Nat) :
    s.forEach l State.captureEntry = s.forEach l fun t c => t.mapCircuit c (Circuit.captured ev) := by
  induction l generalizing s with
  | nil => rfl
  | cons c rest ih =>
    have hc : s.captureEntry c = s.mapCircuit c (Circuit.captured ev) := by
      rw [← h]
      rfl
    show (s.captureEntry c).forEach rest State.captureEntry = _
    rw [hc]
    exact ih (s.mapCircuit c (Circuit.captured ev)) h

theorem State.mem_loadedCircuits (c : Nat) :
    c ∈ s.loadedCircuits ↔ c < 512 ∧ (s.circuit c).state ≠ .empty := by
  simp [State.loadedCircuits, State.circuitsWhere, Config.circuits, CircuitState.loaded]

/-- R102: every loaded circuit has been captured. -/
def State.entriesCaptured : State := s.forEach s.loadedCircuits State.captureEntry

theorem State.entriesCaptured_frame : ∃ st, s.entriesCaptured = { s with store := st } := by
  unfold State.entriesCaptured
  generalize s.loadedCircuits = l
  refine State.forEach_induct s (fun t => ∃ st, t = { s with store := st }) State.captureEntry l ?_ ⟨_, rfl⟩
  rintro _ c - ⟨st, rfl⟩
  exact ⟨_, rfl⟩

theorem State.entriesCaptured_circuit (k : Nat) :
    s.entriesCaptured.circuit k = if k < 512 ∧ (s.circuit k).state ≠ .empty then (s.circuit k).captured s.evidenceOf
      else s.circuit k := by
  have hnodup : s.loadedCircuits.Nodup := List.nodup_range.filter _
  simp only [← State.mem_loadedCircuits]
  unfold State.entriesCaptured
  generalize s.loadedCircuits = l at hnodup ⊢
  rw [s.captureAll_eq s.evidenceOf rfl]
  exact State.forEach_circuit _ (Circuit.captured s.evidenceOf) (fun t c => t.mapCircuit_circuit c _) l hnodup k

theorem State.entriesCaptured_state (k : Nat) : (s.entriesCaptured.circuit k).state = (s.circuit k).state := by
  rw [State.entriesCaptured_circuit]
  split <;> rfl

/-! ### The window's fields and the named circuits (R101, R103) -/

theorem State.setWindowNumber_frame (n : BitVec 16) :
    s.setWindowNumber n = { s with
      window := { s.window with number := n }, report := (s.setWindowNumber n).report } := by
  unfold State.setWindowNumber
  split
  · rename_i h
    rw [← h]
  · rfl

theorem State.clearWorkSet_frame :
    s.clearWorkSet = { s with window := { s.window with workSet := [] }, report := s.clearWorkSet.report } := by
  unfold State.clearWorkSet
  split
  · rename_i h
    rw [← h]
  · rfl

/-- R101, R103: the circuits captured, the flags and the work set cleared, and the number taken. -/
def State.openBegun : State :=
  ((s.entriesCaptured.setWindowFlags false false).setWindowNumber (openFields s.directive.chain).number).clearWorkSet

theorem State.openBegun_frame :
    s.openBegun = { s with
      store := s.entriesCaptured.store
      window := { s.window with
        overrun := false, overtime := false, number := (openFields s.directive.chain).number, workSet := [] }
      report := s.openBegun.report } := by
  obtain ⟨st, hst⟩ := s.entriesCaptured_frame
  unfold State.openBegun
  rw [State.clearWorkSet_frame, State.setWindowNumber_frame, State.setWindowFlags_frame, hst]

theorem State.openNamed_eq :
    s.openNamed = s.openBegun.forEach (openFields s.directive.chain).work State.holdNamed := rfl

theorem State.openNamed_frame : ∃ st rp ws, s.openNamed = { s with
    store := st, report := rp
    window := { s.window with
      overrun := false, overtime := false, number := (openFields s.directive.chain).number, workSet := ws } } := by
  have hnamed := WorkOnly.forEach (u := s.openBegun) State.holdNamed State.holdNamed_workOnly
    (openFields s.directive.chain).work
  rw [State.openNamed_eq]
  obtain ⟨st, rp, ws, h⟩ := hnamed
  rw [h, State.openBegun_frame]
  exact ⟨st, rp, ws, rfl⟩

theorem State.openBegun_circuit (k : Nat) : s.openBegun.circuit k = s.entriesCaptured.circuit k :=
  State.circuit_of_store (by rw [State.openBegun_frame]) k

theorem State.openNamed_circuit (k : Nat) :
    s.openNamed.circuit k = if k ∈ (openFields s.directive.chain).work then (s.entriesCaptured.circuit k).named
      else s.entriesCaptured.circuit k := by
  rw [State.openNamed_eq, State.forEach_circuit_again State.holdNamed Circuit.named Circuit.named_again
    State.holdNamed_circuit, State.openBegun_circuit]

/-- R103: the work set is exactly the named circuits. -/
theorem State.openNamed_member (k : Nat) :
    Table.get false s.openNamed.window.workSet k = decide (k ∈ (openFields s.directive.chain).work) := by
  have hempty : s.openBegun.window.workSet = [] := by rw [State.openBegun_frame]
  rw [State.openNamed_eq, State.forEach_member _ State.holdNamed State.holdNamed_member, hempty]
  rfl

theorem State.openNamed_owes {k : Nat} (hk : k ∈ (openFields s.directive.chain).work)
    (h : (s.circuit k).state.outside ≠ none) : Table.get false s.openNamed.report.owed k = true := by
  rw [State.openNamed_eq]
  refine State.forEach_owes_again State.holdNamed (fun r => r.state.outside ≠ none)
    (fun v c k hkc => (v.holdNamed_circuit c k).trans (if_neg hkc)) State.holdNamed_owes State.holdNamed_owed _ hk ?_
  rwa [State.openBegun_circuit, State.entriesCaptured_state]

/-! ### The OPEN window (R101) -/

/-- R98, R101: an OPEN taken in QUIET owes a WINDOW report, and owes what the naming of the circuits owed. -/
theorem State.acceptOpen_frame (hw : s.window.state = .quiet) :
    s.acceptOpen = { s.openNamed with
      window := { s.openNamed.window with
        state := .opened
        deadline := .running (1000 * clampNat 60 43200 (openFields s.directive.chain).deadline)
        settleTime := clampNat 0 900 (openFields s.directive.chain).settle
        verifyLimit := clampNat 30 7200 (openFields s.directive.chain).verify
        steadyTime := clampNat 0 255 (openFields s.directive.chain).steady }
      trace := { s.trace with silenceLimit := clampNat 100 60000 (openFields s.directive.chain).silence }
      report := { s.openNamed.report with windowOwed := true, wanted := true, assured := false } } := by
  obtain ⟨st, rp, ws, h⟩ := s.openNamed_frame
  rw [State.acceptOpen_eq, State.setWindowState_frame, State.setWindowState_owes _ _ (by rw [h]; simp [hw]), h]
  simp [State.assuredCondition]

/-! ### The checks (R100) -/

/-- R172: the work count of an OPEN by its bits. -/
theorem openCount_eq (chain : List (List Word)) :
    openCount chain = ((chainWord chain 0 1).extractLsb' 16 8).toNat := bits_eq_extractLsb' _ 16 8

/-- R172: the 32 list positions of an OPEN. -/
theorem workHalves_eq (chain : List (List Word)) :
    halves (chainWord chain 0 4) ++ halves (chainWord chain 0 5) ++ continuationList chain 1 ++ continuationList chain 2
      = (List.range 32).map fun p =>
        ((if p < 4 then chainWord chain 0 (4 + p / 2)
          else chainWord chain (1 + (p - 4) / 14) (1 + (p - 4) % 14 / 2)).extractLsb' (16 * (p % 2)) 16).toNat := by
  simp [List.range_succ, continuationList_eq, halves, bits_eq_extractLsb']

theorem openWork_eq {chain : List (List Word)} (h : openCount chain ≤ 32) :
    (openFields chain).work = (List.range (openCount chain)).map fun p =>
      ((if p < 4 then chainWord chain 0 (4 + p / 2)
        else chainWord chain (1 + (p - 4) / 14) (1 + (p - 4) % 14 / 2)).extractLsb' (16 * (p % 2)) 16).toNat := by
  show List.take _ _ = _
  rw [workHalves_eq, map_range_take _ h]

theorem Job.isRestore_iff (j : Job) : j.isRestore = true ↔ ∃ c p o, j = .restore c p o := by
  cases j <;> simp [Job.isRestore]

theorem State.openRefusal_uncounted (h : 32 < (openFields s.directive.chain).workCount) :
    s.openRefusal = some ⟨.refusedRange, 0⟩ := if_pos h

/-- R100: with the work count in range the numbers of the list decide, and then the checks of the window. -/
theorem State.openRefusal_counted (h : (openFields s.directive.chain).workCount ≤ 32) :
    s.openRefusal =
      match firstPosition (fun c => decide (Config.circuits ≤ c)) (openFields s.directive.chain).work with
      | some p => some ⟨.refusedRange, p⟩
      | none =>
        if s.window.state ≠ .quiet then some refusedWindow
        else if s.sweep.restoreList ≠ [] ∨ s.sweep.job.isRestore then some ⟨.busy, 1⟩
        else if s.journal.demand ≠ .none then some ⟨.busy, 2⟩
        else if 0 < s.journal.openBacklog then some ⟨.busy, 3⟩
        else (s.firstEmpty (openFields s.directive.chain).work).map fun c => ⟨.refusedState, c⟩ :=
  if_neg (Nat.not_lt.mpr h)

/-- R100: an OPEN that no check refuses names circuits 0 to 511 only. -/
theorem State.openRefusal_numbers (h : s.openRefusal = none) : ∀ c ∈ (openFields s.directive.chain).work, c < 512 := by
  by_cases hcount : (openFields s.directive.chain).workCount ≤ 32
  · rw [s.openRefusal_counted hcount] at h
    split at h
    · cases h
    · rename_i hnone
      exact fun c hc => Nat.not_le.mp (of_decide_eq_false (firstPosition_eq_none.mp hnone c hc))
  · rw [s.openRefusal_uncounted (Nat.not_le.mp hcount)] at h
    cases h

/-- R100: a restore is listed or running. -/
def State.restoreAhead : Prop := s.sweep.restoreList ≠ [] ∨ ∃ c p o, s.sweep.job = .restore c p o

/-- R100: the answers of the checks that follow those of the list. -/
theorem State.openRefusal_listed (hcount : (openFields s.directive.chain).workCount ≤ 32)
    (hnumbers : ∀ c ∈ (openFields s.directive.chain).work, c < 512) :
    (s.window.state ≠ .quiet → s.openRefusal = some ⟨.refusedState, 512⟩)
    ∧ (s.window.state = .quiet →
      (s.restoreAhead → s.openRefusal = some ⟨.busy, 1⟩)
      ∧ (¬ s.restoreAhead → s.journal.demand ≠ .none → s.openRefusal = some ⟨.busy, 2⟩)
      ∧ (¬ s.restoreAhead → s.journal.demand = .none → 0 < s.journal.openBacklog → s.openRefusal = some ⟨.busy, 3⟩)
      ∧ (¬ s.restoreAhead → s.journal.demand = .none → s.journal.openBacklog = 0 →
        s.openRefusal
          = (s.firstEmpty (openFields s.directive.chain).work).map fun c => ⟨.refusedState, c⟩)) := by
  have hrestore : (s.sweep.restoreList ≠ [] ∨ s.sweep.job.isRestore = true) ↔ s.restoreAhead :=
    or_congr_right s.sweep.job.isRestore_iff
  rw [s.openRefusal_counted hcount, firstPosition_numbers hnumbers]
  refine ⟨fun hw => if_pos hw, fun hw => ?_⟩
  dsimp only
  rw [if_neg (not_not_intro hw)]
  refine ⟨fun hr => if_pos (hrestore.mpr hr), fun hr hd => ?_, fun hr hd hb => ?_, fun hr hd hb => ?_⟩
  all_goals rw [if_neg (mt hrestore.mp hr)]
  · exact if_pos hd
  · rw [if_neg (not_not_intro hd), if_pos hb]
  · rw [if_neg (not_not_intro hd), if_neg (by omega)]

/-! ### O26 -/

/-- R102, R103: what an OPEN makes of a circuit record, as the statement says it. -/
theorem Circuit.captured_named (ev : Nat → Evidence) (r : Circuit) (p : Prop) [Decidable p] :
    (if p then (r.captured ev).named else r.captured ev) = { r.captured ev with
      prior := if p ∧ r.state.outside ≠ none then r.state.outside else r.prior
      state := if p ∧ r.state.outside ≠ none then .held else r.state } := by
  by_cases hp : p
  · rw [if_pos hp, Circuit.named_eq]
    simp only [hp, true_and]
    rfl
  · simp only [hp, if_false, false_and]
    rfl

/-- Settles O26: the circuits captured and named, the window's fields, the checks in order, and the fields by their
bits. -/
theorem openExecuted : Obligations.OpenExecuted := by
  unfold Obligations.OpenExecuted
  refine ⟨fun s hand hrefusal => ?_, fun s _ => ?_, fun chain => ?_⟩
  · have hquiet := s.openRefusal_eq_none hrefusal
    have hnumbers := s.openRefusal_numbers hrefusal
    have howners := (s.acceptOpen_moves (c := .openWindow) rfl).kept.owners (by rintro (h | h | h | h) <;> cases h)
    have hcircuit := s.openNamed_circuit
    have hcaptured := s.entriesCaptured_circuit
    have hmember := s.openNamed_member
    have howes := fun k => s.openNamed_owes (k := k)
    refine ⟨_, exec_directive_done s rfl hand hrefusal, ?_⟩
    rw [State.answerDirective_plain _ _ rfl]
    rw [s.acceptOpen_frame hquiet] at howners ⊢
    obtain ⟨st, rp, ws, hframe⟩ := s.openNamed_frame
    generalize s.openNamed = t at *
    refine ⟨rfl, by rw [hframe], by rw [hframe], by rw [hframe], rfl, by rw [hframe], by simp [clampNat], rfl,
      by simp [clampNat], rfl, hmember, rfl, fun c hc hloaded => ?_, fun c hc => ?_, howes, howners, ?_⟩
    · refine (hcircuit c).trans ?_
      rw [(hcaptured c).trans (if_pos ⟨hc, hloaded⟩), Circuit.captured_named]
      rfl
    · refine (hcircuit c).trans ?_
      rw [(hcaptured c).trans (if_neg fun ⟨hlt, hloaded⟩ => hc.elim (Nat.not_le.mpr hlt) hloaded)]
      rcases hc with hc | hempty
      · exact if_neg fun hmem => absurd (hnumbers c hmem) (Nat.not_lt.mpr hc)
      · rw [Circuit.named_inside (by rw [hempty]; rfl), ite_self]
    · rw [hframe]
      exact ⟨rfl, rfl, rfl, rfl⟩
  · refine ⟨s.openRefusal_uncounted, fun p hcount hp hbad hfirst => ?_, fun ⟨hcount, hnumbers⟩ => ?_⟩
    · rw [s.openRefusal_counted hcount,
        firstPosition_first hp (decide_eq_true hbad) fun q hq => decide_eq_false (Nat.not_le.mpr (hfirst q hq))]
    · obtain ⟨hwindow, hquiet⟩ := s.openRefusal_listed hcount hnumbers
      refine ⟨hwindow, fun hw => ?_⟩
      obtain ⟨hrestore, hdemand, hbacklog, hlast⟩ := hquiet hw
      refine ⟨hrestore, hdemand, hbacklog, fun hr hd hb => ⟨fun p hp hempty hfirst => ?_, fun hloaded => ?_⟩⟩
      · rw [hlast hr hd hb, State.firstEmpty_first hp hempty hfirst]
        rfl
      · rw [hlast hr hd hb, State.firstEmpty_eq_none.mpr hloaded]
        rfl
  · refine ⟨?_, bits_eq_extractLsb' _ 16 8, bits_eq_extractLsb' _ 24 8, bits_eq_extractLsb' _ 0 16,
      bits_eq_extractLsb' _ 16 16, bits_eq_extractLsb' _ 0 16, bits_eq_extractLsb' _ 16 16, openWork_eq⟩
    exact BitVec.eq_of_toNat_eq (by simp [openFields, BitVec.extractLsb'_toNat])

end Sys2Proof.Machine
end

section
/-! A read of the close sweep ends (R122 to R125): the circuit recorded, and the sweep going on with the next. -/

namespace Sys2Proof.Machine

variable {s u v : State} {r : Request} {set : List Nat} {c p n : Nat} {words : List Word}

/-! ### The end of the read (R45, R122) -/

/-- From `s` to `u` the read in progress has ended, and nothing that a close sweep goes by has changed. -/
structure ReadEnded (s u : State) : Prop where
  freed : PortFreed s u
  store : u.store = s.store
  journal : u.journal = s.journal
  sweep : u.sweep = s.sweep
  window : u.window = s.window
  trace : u.trace = s.trace
  verdict : u.verdict = s.verdict
  enables : u.report.enables = s.report.enables

theorem State.freePort_readEnded : ReadEnded s s.freePort :=
  ⟨⟨rfl, rfl, rfl, rfl⟩, rfl, rfl, rfl, rfl, rfl, rfl, rfl⟩

/-- R45, R46: the second failure of the engine's access, before the engine is told. -/
theorem State.sweepFaulted_eq :
    s.sweepFaulted r = { s with
      arbiter := { s.arbiter with port := none, fault := ⟨r.addr, .sweep, 0⟩ }
      report := (s.wantSummary.raise .busFault).report } := by
  have hreport : (s.sweepFaulted r).report = (s.wantSummary.raise .busFault).report := State.raise_report_congr _ _ rfl
  rw [State.sweepFaulted_frame, hreport]

theorem State.sweepFaulted_readEnded : ReadEnded s (s.sweepFaulted r) := by
  rw [State.sweepFaulted_eq, State.raise_frame]
  exact ⟨⟨rfl, rfl, rfl, rfl⟩, rfl, rfl, rfl, rfl, rfl, rfl, rfl⟩

theorem State.sweepFaulted_fault : (s.sweepFaulted r).arbiter.fault = ⟨r.addr, .sweep, 0⟩ := by
  rw [State.sweepFaulted_frame]

/-! ### The events -/

theorem exec_closeSweepReadComplete (data : Word) (h : s.inProgress .sweep r) (hstale : r.stale = false)
    (hjob : s.sweep.job = .closeSweep set c p words) :
    exec (.closeSweepReadComplete data) s = .next (s.freePort.takeCloseWord set c p words data).endEvent := by
  obtain ⟨hreset, n, hport⟩ := h
  have hof : s.portOf .sweep = some r := by simp [State.portOf, hport]
  refine (live_running s (fun s => s.completeCloseSweepRead data) hreset).trans ?_
  simp [State.completeCloseSweepRead, hof, hjob, hstale]

/-- R45, R123: the second failure of a close sweep read. -/
theorem exec_closeSweepFails {i : Instr} (hi : failsAccess i) (h : s.inProgress .sweep r) (hretry : r.retry = true)
    (hstale : r.stale = false) (hjob : s.sweep.job = .closeSweep set c p words) :
    exec i s = .next (((s.sweepFaulted r).recordUnreadable c).sweepOn set (c + 1)).endEvent := by
  have hfail : s.freePort.failInternal .sweep r = (s.sweepFaulted r).failSweep := by
    simp [State.failInternal, hstale, State.sweepFaulted, Requester.faultKind]
  have hclose : (s.sweepFaulted r).sweep.job = .closeSweep set c p words := by
    rw [State.sweepFaulted_frame]
    exact hjob
  rw [exec_secondFailure hi h (by decide) hretry, hfail]
  unfold State.failSweep
  rw [hclose]

/-- R125: the completion of a stopped sweep's read is discarded. -/
theorem exec_staleReadComplete (data : Word) (h : s.inProgress .sweep r) (hstale : r.stale = true) :
    exec (.closeSweepReadComplete data) s = .next s.freePort.releaseHeldSweep.endEvent := by
  obtain ⟨hreset, n, hport⟩ := h
  have hof : s.portOf .sweep = some r := by simp [State.portOf, hport]
  refine (live_running s (fun s => s.completeCloseSweepRead data) hreset).trans ?_
  simp [State.completeCloseSweepRead, hof, hstale]

/-- R113: and so is its second failure, once recorded. -/
theorem exec_staleReadFails {i : Instr} (hi : failsAccess i) (h : s.inProgress .sweep r) (hretry : r.retry = true)
    (hstale : r.stale = true) : exec i s = .next (s.sweepFaulted r).releaseHeldSweep.endEvent := by
  have hfail : s.freePort.failInternal .sweep r = (s.sweepFaulted r).releaseHeldSweep := by
    simp [State.failInternal, hstale, State.sweepFaulted, Requester.faultKind]
  rw [exec_secondFailure hi h (by decide) hretry, hfail]

/-! ### The circuit recorded (R122 to R124) -/

/-- R122: the sweep result, as the statements say it. -/
theorem sweepResultOf_eq (baseline : Option (List Word)) (read : List Word) :
    sweepResultOf baseline read =
      if baseline = none then .new else if baseline = some read then .unchanged else .changed := by
  cases baseline <;> simp [sweepResultOf]

theorem OutsideState.inWindow_toState (o : OutsideState) : o.toState.inWindow = false := by
  cases o <;> rfl

theorem State.recordSwept_window (h : (u.circuit c).state.inWindow = true) :
    u.recordSwept c words = (u.putCircuit c { u.circuit c with
      swept := some words, sweepResult := some (sweepResultOf (u.circuit c).baseline words) }).oweCircuit c := if_pos h

theorem State.recordSwept_joins (h : (u.circuit c).state.inWindow = false)
    (hr : sweepResultOf (u.circuit c).baseline words = .changed) :
    u.recordSwept c words = (u.putCircuit c { u.circuit c with
      prior := (u.circuit c).state.outside, swept := some words, sweepResult := some .changed
      undeclared := true }).setCircuitState c .pending := (if_neg (by simp [h])).trans (if_pos hr)

theorem State.recordSwept_stays (h : (u.circuit c).state.inWindow = false)
    (hr : sweepResultOf (u.circuit c).baseline words ≠ .changed) : u.recordSwept c words = u :=
  (if_neg (by simp [h])).trans (if_neg hr)

/-- R122, R165: a CIRCUIT report is owed for a circuit that the sweep has recorded. -/
theorem State.recordSwept_owes (h : (u.circuit c).state.inWindow = true
      ∨ sweepResultOf (u.circuit c).baseline words = .changed) :
    Table.get false (u.recordSwept c words).report.owed c = true := by
  cases hin : (u.circuit c).state.inWindow with
  | true =>
    rw [State.recordSwept_window hin]
    simp [State.oweCircuit]
  | false =>
    rw [State.recordSwept_joins hin (h.resolve_left (by simp [hin]))]
    refine State.setCircuitState_owes _ c _ ?_
    rw [State.putCircuit_circuit, if_pos rfl]
    intro hpending
    rw [hpending] at hin
    cases hin

theorem State.recordUnreadable_window (h : (u.circuit c).state.inWindow = true) :
    u.recordUnreadable c = ((u.putCircuit c { u.circuit c with
      sweepResult := some .unreadable, cause := some .unreadable }).oweCircuit c).setCircuitState c .broken := if_pos h

theorem State.recordUnreadable_outside (h : (u.circuit c).state.inWindow = false) :
    u.recordUnreadable c = u.driftSettled c := if_neg (by simp [h])

theorem State.recordUnreadable_storeReport : StoreReportOnly u (u.recordUnreadable c) := by
  cases hin : (u.circuit c).state.inWindow with
  | true =>
    rw [State.recordUnreadable_window hin]
    exact StoreReportOnly.after (State.setCircuitState_storeReport _ c _) ⟨_, _, rfl⟩
  | false =>
    rw [State.recordUnreadable_outside hin]
    unfold State.driftSettled
    split
    · exact StoreReportOnly.after (State.raise_storeReport _ _) (u.setCircuitState_storeReport c _)
    · exact ⟨_, _, rfl⟩

theorem State.recordUnreadable_arbiter : (u.recordUnreadable c).arbiter = u.arbiter := by
  obtain ⟨st, rp, h⟩ := State.recordUnreadable_storeReport (u := u) (c := c)
  rw [h]

/-- R123: a CIRCUIT report is owed for a window circuit that cannot be read. -/
theorem State.recordUnreadable_owes (h : (u.circuit c).state.inWindow = true) :
    Table.get false (u.recordUnreadable c).report.owed c = true := by
  rw [State.recordUnreadable_window h]
  exact State.setCircuitState_owed _ c .broken c (by simp [State.oweCircuit])

/-- R122, R124: the record that a circuit takes from the words read. -/
def Circuit.sweptAs (old : Circuit) (words : List Word) : Circuit :=
  if old.state.inWindow then { old with swept := some words, sweepResult := some (sweepResultOf old.baseline words) }
  else if sweepResultOf old.baseline words = .changed then
    { old with
      prior := old.state.outside, swept := some words, sweepResult := some .changed, undeclared := true
      state := .pending }
  else old

/-- R123, R124: the record that a circuit takes from a read that failed twice. -/
def Circuit.unreadableAs (old : Circuit) : Circuit :=
  if old.state.inWindow then
    { old with state := .broken, cause := some .unreadable, sweepResult := some .unreadable }
  else if old.state = .settled then { old with state := .drifted }
  else old

theorem Circuit.sweptAs_window {old : Circuit} (h : old.state.inWindow = true) :
    old.sweptAs words = { old with
      swept := some words, sweepResult := some (sweepResultOf old.baseline words) } := if_pos h

theorem Circuit.sweptAs_joins {old : Circuit} {o : OutsideState} (h : old.state = o.toState)
    (hr : sweepResultOf old.baseline words = .changed) :
    old.sweptAs words = { old with
      prior := some o, swept := some words, sweepResult := some .changed, undeclared := true, state := .pending } := by
  have hout : old.state.inWindow = false := h ▸ o.inWindow_toState
  unfold Circuit.sweptAs
  rw [if_neg (by simp [hout]), if_pos hr, h, o.outside_toState]

theorem Circuit.sweptAs_stays {old : Circuit} (h : old.state.inWindow = false)
    (hr : sweepResultOf old.baseline words ≠ .changed) : old.sweptAs words = old :=
  (if_neg (by simp [h])).trans (if_neg hr)

theorem Circuit.unreadableAs_window {old : Circuit} (h : old.state.inWindow = true) :
    old.unreadableAs = { old with state := .broken, cause := some .unreadable, sweepResult := some .unreadable } :=
  if_pos h

theorem Circuit.unreadableAs_settled {old : Circuit} (h : old.state = .settled) :
    old.unreadableAs = { old with state := .drifted } := (if_neg (by simp [h, CircuitState.inWindow])).trans (if_pos h)

theorem Circuit.unreadableAs_stays {old : Circuit} (h : old.state.inWindow = false) (hset : old.state ≠ .settled) :
    old.unreadableAs = old := (if_neg (by simp [h])).trans (if_neg hset)

theorem Circuit.unreadableAs_marked {old : Circuit} (h : old.state = .drifted ∨ old.state = .faulted) :
    old.unreadableAs = old := by
  rcases h with h | h
  all_goals exact Circuit.unreadableAs_stays (by rw [h]; rfl) (by rw [h]; decide)

/-- From `s` to `v` the read in progress has ended, and circuit `c`, whose record becomes `last`, is recorded. -/
structure CloseRead (s v : State) (c : Nat) (last : Circuit) : Prop where
  freed : PortFreed s v
  journal : v.journal = s.journal
  sweep : v.sweep = s.sweep
  window : v.window = s.window
  trace : v.trace = s.trace
  verdict : v.verdict = s.verdict
  enables : v.report.enables = s.report.enables
  boundTo : ∀ ch, v.boundTo ch = s.boundTo ch
  circuit : ∀ k, v.circuit k = if k = c then last else s.circuit k
  stays : last.state.inWindow = false → last = s.circuit c → v.store = s.store

/-- R122 to R124: with the read ended the circuit is recorded in the Circuit Store and by marks of the Report Unit. -/
theorem ReadEnded.closeRead {last : Circuit} (h : ReadEnded s u) (hv : StoreReportOnly u v)
    (henables : v.report.enables = u.report.enables) (hbound : ∀ ch, v.boundTo ch = u.boundTo ch)
    (hcircuit : ∀ k, v.circuit k = if k = c then last else u.circuit k)
    (hstays : last.state.inWindow = false → last = u.circuit c → v.store = u.store) : CloseRead s v c last := by
  obtain ⟨st, rp, rfl⟩ := hv
  have hcircuits := State.circuit_of_store h.store
  refine ⟨⟨h.freed.port, h.freed.sweep, h.freed.layout, h.freed.pass⟩, h.journal, h.sweep, h.window, h.trace, h.verdict,
    henables.trans h.enables, fun ch => (hbound ch).trans ?_, fun k => (hcircuit k).trans ?_, fun hout hsame => ?_⟩
  · simp only [State.boundTo, h.store]
  · rw [hcircuits]
  · exact (hstays hout (hsame.trans (hcircuits c).symm)).trans h.store

/-- R122, R124: a circuit of which the sweep records nothing. -/
theorem ReadEnded.closeReadSame (h : ReadEnded s u) : CloseRead s u c (s.circuit c) :=
  h.closeRead ⟨_, _, rfl⟩ rfl (fun _ => rfl)
    (fun k => by rw [← State.circuit_of_store h.store]; split <;> simp_all) fun _ _ => rfl

/-- R122, R124: a read of every entry has ended. -/
theorem ReadEnded.swept (h : ReadEnded s u) : CloseRead s (u.recordSwept c words) c ((s.circuit c).sweptAs words) := by
  rw [← State.circuit_of_store h.store]
  cases hin : (u.circuit c).state.inWindow with
  | true =>
    rw [State.recordSwept_window hin, Circuit.sweptAs_window hin]
    refine h.closeRead ⟨_, _, rfl⟩ rfl (fun _ => rfl) (fun k => u.putCircuit_circuit c _ k) fun hout => ?_
    rw [hin] at hout
    cases hout
  | false =>
    by_cases hr : sweepResultOf (u.circuit c).baseline words = .changed
    · have hlast : (u.circuit c).sweptAs words = _ := (if_neg (by simp [hin])).trans (if_pos hr)
      rw [State.recordSwept_joins hin hr, hlast]
      refine h.closeRead
        (StoreReportOnly.after (State.setCircuitState_storeReport _ c _) (u.putCircuit_storeReport c _))
        (State.setCircuitState_causes c _).2 (fun ch => State.setCircuitState_boundTo _ c _ ch) (fun k => ?_) nofun
      rw [State.setCircuitState_circuit, State.putCircuit_circuit, State.putCircuit_circuit, if_pos rfl]
      split <;> rfl
    · rw [State.recordSwept_stays hin hr, Circuit.sweptAs_stays hin hr, State.circuit_of_store h.store]
      exact h.closeReadSame

/-- R124: a SETTLED circuit that cannot be read has drifted. -/
theorem ReadEnded.drifts (h : ReadEnded s u) (hst : (u.circuit c).state = .settled) :
    CloseRead s (u.driftSettled c) c { u.circuit c with state := .drifted } := by
  have hdrifts : u.driftSettled c = (u.setCircuitState c .drifted).raise .drift := if_pos hst
  rw [hdrifts]
  have henables := (State.setCircuitState_causes (s := u) c .drifted).2
  have hbound := u.setCircuitState_boundTo c .drifted
  have hcircuit := u.setCircuitState_circuit c .drifted
  have hstore := u.setCircuitState_storeReport c .drifted
  generalize u.setCircuitState c .drifted = w at henables hbound hcircuit hstore ⊢
  refine h.closeRead (StoreReportOnly.after (w.raise_storeReport _) hstore) ?_ (fun ch => ?_) (fun k => ?_)
    fun _ hsame => ?_
  · rw [State.raise_frame]
    exact henables
  · rw [State.raise_frame]
    exact hbound ch
  · exact (State.circuit_of_store (w.raise_store _) k).trans (hcircuit k)
  · rw [← hsame] at hst
    cases hst

/-- R123, R124: a read has failed twice. -/
theorem ReadEnded.unreadable (h : ReadEnded s u) : CloseRead s (u.recordUnreadable c) c (s.circuit c).unreadableAs := by
  rw [← State.circuit_of_store h.store]
  cases hin : (u.circuit c).state.inWindow with
  | true =>
    rw [State.recordUnreadable_window hin, Circuit.unreadableAs_window hin]
    refine h.closeRead
      (StoreReportOnly.after (State.setCircuitState_storeReport _ c _) ⟨_, _, rfl⟩)
      (State.setCircuitState_causes c _).2 (fun ch => State.setCircuitState_boundTo _ c _ ch) (fun k => ?_) nofun
    rw [State.setCircuitState_circuit, State.oweCircuit_circuit, State.oweCircuit_circuit, State.putCircuit_circuit,
      State.putCircuit_circuit, if_pos rfl]
    split <;> rfl
  | false =>
    rw [State.recordUnreadable_outside hin]
    by_cases hst : (u.circuit c).state = .settled
    · rw [Circuit.unreadableAs_settled hst]
      exact h.drifts hst
    · rw [State.driftSettled_left hst, Circuit.unreadableAs_stays hin hst, State.circuit_of_store h.store]
      exact h.closeReadSame

/-! ### The sweep goes on (R120, R122) -/

theorem State.sweepOn_next (h : (set.find? fun k => decide (c < k)) = some n) :
    u.sweepOn set (c + 1) = u.runJob (.closeSweep set n 1 []) := by
  have hfind : (set.find? fun k => decide (c + 1 ≤ k)) = some n := h
  unfold State.sweepOn
  rw [hfind]

theorem State.sweepOn_last (h : (set.find? fun k => decide (c < k)) = none) :
    u.sweepOn set (c + 1) = u.endCloseSweep := by
  have hfind : (set.find? fun k => decide (c + 1 ≤ k)) = none := h
  unfold State.sweepOn
  rw [hfind]

theorem State.takeCloseWord_last (data : Word) (h : (s.circuit c).entries.length ≤ p) :
    s.freePort.takeCloseWord set c p words data
      = (s.freePort.recordSwept c (words ++ [data])).sweepOn set (c + 1) := if_neg (Nat.not_lt.mpr h)

/-- R120, R122: with entries left the next one's read is requested or held. -/
theorem State.takeCloseWord_next (data : Word) (h : p < (s.circuit c).entries.length) (ha : s.arbiter.sweep = none) :
    s.freePort.takeCloseWord set c p words data = { s with
      arbiter := { s.arbiter with
        port := none
        sweep := if s.bufferHolds (s.connAddr ((s.circuit c).entries.getD p 0)) then none
          else some { addr := s.connAddr ((s.circuit c).entries.getD p 0) } }
      sweep := { s.sweep with
        job := .closeSweep set c (p + 1) (words ++ [data])
        held := if s.bufferHolds (s.connAddr ((s.circuit c).entries.getD p 0)) then
          some (s.connAddr ((s.circuit c).entries.getD p 0), none) else none } } := by
  have hnext : s.freePort.takeCloseWord set c p words data
      = s.freePort.runJob (.closeSweep set c (p + 1) (words ++ [data])) := if_pos h
  rw [hnext]
  exact State.runJob_ready s.freePort _ (s.connAddr ((s.circuit c).entries.getD p 0)) none rfl
    (State.sweepOutstanding_eq_false _ ha fun g hg => by cases hg)

/-- From `s` to `t` the close sweep has recorded circuit `c` as `last` and goes on with circuit `n` of its set. -/
structure SweepGoesOn (s t : State) (set : List Nat) (c : Nat) (last : Circuit) (n : Nat) : Prop where
  others : ∀ k, k ≠ c → t.circuit k = s.circuit k
  recorded : t.circuit c = last
  sweep : t.sweep = { s.sweep with job := .closeSweep set n 1 [], held := t.sweep.held }
  access : s.firstAccessMade t n none
  window : t.window = s.window
  rest : t.trace = s.trace ∧ t.journal = s.journal ∧ t.verdict = s.verdict

theorem CloseRead.goesOn {last : Circuit} (h : CloseRead s v c last)
    (hn : (set.find? fun k => decide (c < k)) = some n) :
    SweepGoesOn s (v.sweepOn set (c + 1)) set c last n
      ∧ (v.sweepOn set (c + 1)).report = v.report ∧ (v.sweepOn set (c + 1)).arbiter.fault = v.arbiter.fault := by
  rw [State.sweepOn_next hn]
  have hon := v.runJob_sweepsOn (.closeSweep set n 1 [])
  have haccess := h.freed.firstAccessMade (.closeSweep set n 1 []) n none rfl
  have hframe := v.runJob_frame (.closeSweep set n 1 [])
  generalize v.runJob (.closeSweep set n 1 []) = t at hon haccess hframe ⊢
  have hcircuit : ∀ k, t.circuit k = v.circuit k := fun k => by rw [hframe]; rfl
  refine ⟨⟨fun k hk => ?_, ?_, ?_, haccess, hon.window.trans h.window, hon.trace.trans h.trace, ?_, ?_⟩, ?_, hon.fault⟩
  · rw [hcircuit, h.circuit, if_neg hk]
  · rw [hcircuit, h.circuit, if_pos rfl]
  · rw [← h.sweep, hframe]
  · rw [← h.journal, hframe]
  · rw [← h.verdict, hframe]
  · rw [hframe]

end Sys2Proof.Machine
end

section
/-! The reads of a close sweep (R113, R120 to R125): what each end of a read leaves. -/

namespace Sys2Proof.Machine

variable {s u v : State} {r : Request} {set : List Nat} {c p n : Nat} {words : List Word}

/-! ### A stopped sweep's read (R113, R125) -/

/-- R120: with no write to its word in the buffer a held request is made once no access of the engine is outstanding. -/
theorem State.releaseHeldSweep_made {addr : Nat} {word : Option Word} (h : s.sweep.held = some (addr, word))
    (hport : s.arbiter.port = none) (ha : s.arbiter.sweep = none)
    (hb : ∀ b, s.pass.buffer = some b → b.addr ≠ addr) :
    s.releaseHeldSweep = { s with
      arbiter := { s.arbiter with sweep := some { addr, write := word.map (·, 0xF) } }
      sweep := { s.sweep with held := none } } := by
  have hclear : s.bufferHolds addr = false := by
    rw [State.bufferHolds_eq]
    cases hbuf : s.pass.buffer with
    | none => rfl
    | some b => simpa using hb b hbuf
  have hfree : s.sweepOutstanding = false :=
    State.sweepOutstanding_eq_false s ha fun g hg => by rw [hport] at hg; cases hg
  rw [s.releaseHeldSweep_some addr word h, s.requestOrHold_clear addr word hclear hfree]

/-! ### The circuit recorded, and the sweep going on (R122 to R124) -/

/-- R122, R124: the last read of a circuit's entries, with a circuit left in the sweep's set. -/
theorem State.closeSweepReads_last (data : Word) (hprogress : s.inProgress .sweep r) (hstale : r.stale = false)
    (hjob : s.sweep.job = .closeSweep set c p words) (hp : (s.circuit c).entries.length ≤ p)
    (hn : (set.find? fun k => decide (c < k)) = some n) :
    ∃ t : State, exec (.closeSweepReadComplete data) s = .next t.endEvent
      ∧ SweepGoesOn s t set c ((s.circuit c).sweptAs (words ++ [data])) n
      ∧ ((s.circuit c).state.inWindow = true ∨ sweepResultOf (s.circuit c).baseline (words ++ [data]) = .changed →
          Table.get false t.report.owed c = true) := by
  have hread := (State.freePort_readEnded (s := s)).swept (c := c) (words := words ++ [data])
  obtain ⟨hon, hreport, -⟩ := hread.goesOn hn
  refine ⟨_, exec_closeSweepReadComplete data hprogress hstale hjob, ?_⟩
  rw [State.takeCloseWord_last data hp]
  refine ⟨hon, fun h => ?_⟩
  rw [hreport]
  exact State.recordSwept_owes (u := s.freePort) h

/-- R123, R124: the second failure of a close sweep read, with a circuit left in the sweep's set. -/
theorem State.closeSweepReads_fails {i : Instr} (hi : failsAccess i) (hprogress : s.inProgress .sweep r)
    (hretry : r.retry = true) (hstale : r.stale = false) (hjob : s.sweep.job = .closeSweep set c p words)
    (hn : (set.find? fun k => decide (c < k)) = some n) :
    ∃ t : State, exec i s = .next t.endEvent
      ∧ SweepGoesOn s t set c (s.circuit c).unreadableAs n ∧ t.arbiter.fault = ⟨r.addr, .sweep, 0⟩
      ∧ ((s.circuit c).state.inWindow = true → Table.get false t.report.owed c = true)
      ∧ ((s.circuit c).state = .settled →
          s.report.enables.getLsbD 5 = true → t.report.pending.getLsbD 5 = true) := by
  have hended := State.sweepFaulted_readEnded (s := s) (r := r)
  obtain ⟨hon, hreport, hfault⟩ := (hended.unreadable (c := c)).goesOn hn
  have hcircuit := State.circuit_of_store hended.store c
  refine ⟨_, exec_closeSweepFails hi hprogress hretry hstale hjob, hon, ?_, fun hin => ?_, fun hst he => ?_⟩
  · rw [hfault, State.recordUnreadable_arbiter, State.sweepFaulted_fault]
  · rw [hreport]
    exact State.recordUnreadable_owes (by rwa [hcircuit])
  · have hout : ((s.sweepFaulted r).circuit c).state.inWindow = false := by rw [hcircuit, hst]; rfl
    rw [hreport, State.recordUnreadable_outside hout]
    exact (State.driftSettled_marks (by rwa [hcircuit])).2 (by rwa [hended.enables])

/-- Settles O44: `SweepGoesOn` carries what a recorded circuit leaves, and a stopped sweep's read frees the port. -/
theorem closeSweepReads : Obligations.CloseSweepReads := by
  unfold Obligations.CloseSweepReads
  refine ⟨fun s r set c p words data hprogress hstale hidle hjob => ?_,
    fun i s r set c p n words hi hprogress hretry hstale hidle hjob hn => ?_, fun s r data hprogress hstale => ?_⟩
  · dsimp only
    rw [← sweepResultOf_eq, ← State.bufferHolds_eq]
    refine ⟨fun hp => ?_, fun n hp hn => ?_⟩
    · rw [exec_closeSweepReadComplete data hprogress hstale hjob, State.takeCloseWord_next data hp hidle]
    · obtain ⟨t, hexec, hon, howed⟩ := State.closeSweepReads_last data hprogress hstale hjob hp hn
      obtain ⟨htrace, hjournal, hverdict⟩ := hon.rest
      refine ⟨t, hexec, hon.others, fun hin => ⟨?_, howed (.inl hin)⟩, fun o hout hr => ⟨?_, howed (.inr hr)⟩,
        fun o hout hr => ?_, hon.sweep, hon.access, hon.window, htrace, hjournal, hverdict⟩
      · rw [hon.recorded, Circuit.sweptAs_window hin]
      · rw [hon.recorded, Circuit.sweptAs_joins hout hr]
      · rw [hon.recorded, Circuit.sweptAs_stays (hout ▸ o.inWindow_toState) hr]
  · obtain ⟨t, hexec, hon, hfault, howed, hdrift⟩ := State.closeSweepReads_fails hi hprogress hretry hstale hjob hn
    refine ⟨t, hexec, hon.others, fun hin => ⟨?_, howed hin⟩, fun hst => ⟨?_, hdrift hst⟩, fun hst => ?_, hon.sweep,
      hon.access, hfault, hon.window⟩
    · rw [hon.recorded, Circuit.unreadableAs_window hin]
    · rw [hon.recorded, Circuit.unreadableAs_settled hst]
    · rw [hon.recorded, Circuit.unreadableAs_marked hst]
  · have hdone := exec_staleReadComplete data hprogress hstale
    refine ⟨fun hheld => ⟨?_, fun i hi hretry => ?_⟩, fun addr word hheld ha => ?_⟩
    · rw [hdone, State.releaseHeldSweep_none s.freePort hheld]
      rfl
    · rw [exec_staleReadFails hi hprogress hretry hstale, State.sweepFaulted_eq,
        State.releaseHeldSweep_none _ (by exact hheld)]
    · intro made hb
      refine ⟨?_, fun i hi hretry => ?_⟩
      · rw [hdone, State.releaseHeldSweep_made (s := s.freePort) hheld rfl ha hb]
        rfl
      · rw [exec_staleReadFails hi hprogress hretry hstale, State.sweepFaulted_eq,
          State.releaseHeldSweep_made (by exact hheld) (by rfl) (by exact ha) (by exact hb)]

end Sys2Proof.Machine
end

section
/-! The end of the close sweep (R125, R135, R136, R143): the window verifies its circuits, or concludes without any. -/

namespace Sys2Proof.Machine

variable {s t v w : State} {c : Nat} {last : Circuit} {words : List Word}

/-! ### The entry to VERIFYING (R135, R136) -/

/-- R125: from `w` to `t` the window has gone on, and the blocks that have no part in that are as they were. -/
structure WindowWentOn (w t : State) : Prop where
  sweep : t.sweep = w.sweep
  arrivals : t.trace.arrivals = w.trace.arrivals
  journal : t.journal = w.journal
  pass : t.pass = w.pass
  arbiter : t.arbiter = w.arbiter
  owed : t.report.windowOwed = true

/-- R135, R136: from `w` to `t` the window has entered VERIFYING with the chosen window circuits judged afresh. -/
structure VerifyingEntered (w t : State) (chosen : Circuit → Bool) : Prop where
  wentOn : WindowWentOn w t
  window : t.window = { w.window with state := .verifying }
  limit : t.verdict.limit = ⟨true, 1000 * w.window.verifyLimit⟩
  steadyStarts : t.count .pending = 0 → t.verdict.steady = ⟨true, 1000 * w.window.steadyTime⟩
  steadyStops : t.count .pending ≠ 0 → t.verdict.steady = { w.verdict.steady with running := false }
  judged : ∀ k, k < 512 → (w.circuit k).state.inWindow = true → t.circuit k =
    if chosen (w.circuit k) then { w.circuit k with state := .pending, cause := none, verdictChanges := 0 }
    else { w.circuit k with verdictChanges := 0 }
  others : ∀ k, 512 ≤ k ∨ (w.circuit k).state.inWindow = false → t.circuit k = w.circuit k
  evidence : w.channelsAgree → ∀ ch k, k < 512 → w.boundTo ch = some k → (w.circuit k).state.inWindow = true →
    t.evidenceOf ch =
      { (if chosen (w.circuit k) then {} else w.evidenceOf ch) with silence := .running w.trace.silenceLimit }
  evidenceStays : w.channelsAgree → ∀ ch, (∀ k, w.boundTo ch = some k → (w.circuit k).state.inWindow = false) →
    t.evidenceOf ch = w.evidenceOf ch

theorem State.enterVerifying_verifies (chosen : Circuit → Bool) (hw : w.window.state ≠ .verifying)
    (hsome : w.windowCircuits ≠ []) : VerifyingEntered w (w.enterVerifying chosen) chosen := by
  have hcircuit (k : Nat) := (w.verifying_circuit chosen k).trans (w.verificationStarted_circuit chosen k)
  have hevidence := w.verifying_evidenceOf chosen
  have hbound := fun hagree ch k => w.verificationStarted_evidenceOf_bound chosen (ch := ch) (c := k) hw hagree
  have hother := fun hagree ch => w.verificationStarted_evidenceOf_other chosen (ch := ch) hw hagree
  have howed := w.verifying_windowOwed chosen hw
  obtain ⟨st, rp, ev, hframe⟩ := w.verifying_frame chosen
  have hsettled := (w.verifying chosen).settleEntry_verifies (by rwa [w.verifying_windowCircuits])
  rw [w.enterVerifying_eq, hsettled]
  generalize w.verifying chosen = v at *
  refine ⟨⟨?_, ?_, ?_, ?_, ?_, howed⟩, ?_, ?_, fun hcount => ?starts, fun hcount => ?stops, fun k hk hin => ?judged,
    fun k hk => ?others, fun hagree ch k hk hb hin => ?evidence,
    fun hagree ch hout => (hevidence ch).trans (hother hagree ch hout)⟩
  case starts =>
    refine (if_pos hcount).trans ?_
    rw [hframe]
    rfl
  case stops =>
    refine (if_neg hcount).trans ?_
    rw [hframe]
    rfl
  case judged => exact (hcircuit k).trans (if_pos ((w.mem_windowCircuits k).mpr ⟨hk, hin⟩))
  case others =>
    refine (hcircuit k).trans (if_neg fun hmem => ?_)
    obtain ⟨hlt, hin⟩ := (w.mem_windowCircuits k).mp hmem
    rcases hk with hk | hk
    · exact absurd hlt (Nat.not_lt.mpr hk)
    · rw [hk] at hin
      cases hin
  case evidence =>
    exact (hevidence ch).trans (hbound hagree ch k hb ((w.mem_windowCircuits k).mpr ⟨hk, hin⟩))
  all_goals rw [hframe]
  rfl

/-- R136, R143: from `w` to `t` the window has concluded at once, with no window circuit. -/
structure ConcludedAtOnce (w t : State) : Prop where
  wentOn : WindowWentOn w t
  window : t.window = { w.window with state := .concluded }
  limit : t.verdict.limit = ⟨false, 1000 * w.window.verifyLimit⟩
  steady : t.verdict.steady = { w.verdict.steady with running := false }
  evidence : ∀ ch, t.evidenceOf ch = { w.evidenceOf ch with silence := .stopped }
  raised : w.report.enables.getLsbD 0 = true → t.report.pending.getLsbD 0 = true
  store : t.store = w.store

theorem State.enterVerifying_concludes (chosen : Circuit → Bool) (hnone : w.windowCircuits = []) :
    ConcludedAtOnce w (w.enterVerifying chosen) := by
  rw [w.enterVerifying_nil chosen hnone]
  have henables := State.setWindowState_enables { w with
    verdict := { limit := VerdictTimer.start w.window.verifyLimit, steady := w.verdict.steady.stop } } .verifying
  have hframe := State.setWindowState_frame { w with
    verdict := { limit := VerdictTimer.start w.window.verifyLimit, steady := w.verdict.steady.stop } } .verifying
  generalize State.setWindowState _ .verifying = v at *
  have hevidence := v.conclude_evidenceOf
  have howed := v.conclude_windowOwed (by rw [hframe]; nofun)
  have hpends := v.conclude_pends
  rw [henables] at hpends
  have hconcluded := v.conclude_frame
  generalize v.conclude = u at *
  refine ⟨⟨?_, ?_, ?_, ?_, ?_, howed⟩, ?_, ?_, ?_, fun ch => (hevidence ch).trans (by rw [hframe]; rfl), hpends, ?_⟩
  all_goals rw [hconcluded, hframe]
  all_goals rfl

/-! ### The sweep's end, after its last circuit's record (R125) -/

theorem State.windowCircuits_eq_nil : w.windowCircuits = [] ↔ ∀ k, k < 512 → (w.circuit k).state.inWindow = false := by
  simp [List.eq_nil_iff_forall_not_mem, State.mem_windowCircuits]

theorem Circuit.sweptAs_channel (old : Circuit) : (old.sweptAs words).channel = old.channel := by
  unfold Circuit.sweptAs
  split
  · rfl
  · split <;> rfl

theorem Circuit.unreadableAs_channel (old : Circuit) : old.unreadableAs.channel = old.channel := by
  unfold Circuit.unreadableAs
  split
  · rfl
  · split <;> rfl

theorem CloseRead.channelsAgree (h : CloseRead s v c last) (hchannel : last.channel = (s.circuit c).channel)
    (hagree : s.channelsAgree) : v.channelsAgree := by
  intro ch k
  rw [h.boundTo, h.circuit, hagree ch k]
  split
  · rename_i hk
    rw [hk, hchannel]
  · rfl

theorem CloseRead.not_verifying (h : CloseRead s v c last) (hw : s.window.state = .sweeping) :
    v.window.state ≠ .verifying := by
  rw [h.window, hw]
  decide

/-- R135, R136: with a window circuit the end of the close sweep enters VERIFYING. -/
theorem CloseRead.endsVerifying (h : CloseRead s v c last) (hw : s.window.state = .sweeping)
    (hsome : ∃ k, k < 512 ∧ (v.circuit k).state.inWindow = true) :
    VerifyingEntered v.endJob v.endCloseSweep fun r => !r.isUnreadable := by
  refine State.enterVerifying_verifies _ (h.not_verifying hw) fun hnil => ?_
  obtain ⟨k, hk, hin⟩ := hsome
  exact Bool.noConfusion (hin.symm.trans (State.windowCircuits_eq_nil.mp hnil k hk))

/-- R143: with no window circuit it concludes the window. -/
theorem State.endCloseSweep_concludes (hnone : ∀ k, k < 512 → (v.circuit k).state.inWindow = false) :
    ConcludedAtOnce v.endJob v.endCloseSweep :=
  State.enterVerifying_concludes _ (State.windowCircuits_eq_nil.mpr hnone)

theorem State.endCloseSweep_wentOn (hw : v.window.state ≠ .verifying) : WindowWentOn v.endJob v.endCloseSweep := by
  by_cases hnil : v.endJob.windowCircuits = []
  · exact (State.enterVerifying_concludes _ hnil).wentOn
  · exact (State.enterVerifying_verifies _ (by exact hw) hnil).wentOn

/-- Settles O45: both ends of the read record the circuit, and then `endCloseSweep` goes on from what is recorded. -/
theorem closeSweepEndEntersVerifying : Obligations.CloseSweepEndEntersVerifying := by
  unfold Obligations.CloseSweepEndEntersVerifying
  intro s r set c p words hprogress hstale hjob hc hw hnone old ends
  have hends {v : State} {last : Circuit} (h : CloseRead s v c last) (hchannel : last.channel = old.channel) :
      ends last v.endCloseSweep := by
    have htrace : v.endJob.trace = s.trace := h.trace
    have hevidence (ch : Nat) : v.endJob.evidenceOf ch = s.evidenceOf ch := by simp only [State.evidenceOf, htrace]
    have hon := State.endCloseSweep_wentOn (h.not_verifying hw)
    refine ⟨?_, hon.owed, hon.arrivals.trans (congrArg _ htrace), hon.journal.trans h.journal,
      hon.pass.trans h.freed.pass, fun hsome => ?_, fun hno => ?_⟩
    · rw [hon.sweep]
      rfl
    · simp only [← h.circuit] at hsome ⊢
      have hin := h.endsVerifying hw hsome
      have hagree := fun ha => h.channelsAgree hchannel ha
      refine ⟨?_, ?_, fun hcount => ?_, fun hcount => ?_, fun k hk hk' => ?_, hin.others,
        fun ha ch k hk hb hk' => ?_, fun ha ch hout => ?_⟩
      · rw [hin.window, State.endJob_window, h.window]
      · rw [hin.limit, State.endJob_window, h.window]
      · rw [hin.steadyStarts hcount, State.endJob_window, h.window]
      · rw [hin.steadyStops hcount, State.endJob_verdict, h.verdict]
      · rw [hin.judged k hk hk']
        cases hun : (v.circuit k).isUnreadable <;> simp [hun]
      · rw [hin.evidence (hagree ha) ch k hk ((h.boundTo ch).trans hb) hk', htrace, hevidence]
        cases hun : (v.circuit k).isUnreadable <;> simp [hun]
      · rw [hin.evidenceStays (hagree ha) ch fun k hk => hout k ((h.boundTo ch).symm.trans hk), hevidence]
    · simp only [← h.circuit] at hno ⊢
      have hat := State.endCloseSweep_concludes hno
      refine ⟨?_, ?_, ?_, fun ch => ?_, fun he => hat.raised ?_, fun k => ?_, fun hsame => ?_⟩
      · rw [hat.window, State.endJob_window, h.window]
      · rw [hat.limit, State.endJob_window, h.window]
      · rw [hat.steady, State.endJob_verdict, h.verdict]
      · rw [hat.evidence, hevidence]
      · rwa [State.endJob_report, h.enables]
      · exact State.circuit_of_store hat.store k
      · refine hat.store.trans (h.stays ?_ hsame)
        have hlast := hno c hc
        rwa [h.circuit, if_pos rfl] at hlast
  refine ⟨fun data hp => ?_, fun i hi hretry => ?_⟩
  · dsimp only
    rw [← sweepResultOf_eq]
    have hend := hends ((State.freePort_readEnded (s := s)).swept (c := c) (words := words ++ [data]))
      (Circuit.sweptAs_channel _)
    refine ⟨_, exec_closeSweepReadComplete data hprogress hstale hjob, ?_⟩
    rw [State.takeCloseWord_last data hp, State.sweepOn_last hnone]
    refine ⟨fun hin => ?_, fun o hout => ⟨fun hr => ?_, fun hr => ?_⟩⟩
    · rwa [Circuit.sweptAs_window hin] at hend
    · rwa [Circuit.sweptAs_joins hout hr] at hend
    · rwa [Circuit.sweptAs_stays (hout ▸ o.inWindow_toState) hr] at hend
  · have hread := (State.sweepFaulted_readEnded (s := s) (r := r)).unreadable (c := c)
    have hend := hends hread (Circuit.unreadableAs_channel _)
    have hfault := (State.endCloseSweep_wentOn (hread.not_verifying hw)).arbiter
    refine ⟨_, exec_closeSweepFails hi hprogress hretry hstale hjob, ?_⟩
    rw [State.sweepOn_last hnone]
    refine ⟨?_, fun hin => ?_, fun hst => ?_, fun hst => ?_⟩
    · rw [hfault, State.endJob_arbiter, State.recordUnreadable_arbiter, State.sweepFaulted_fault]
    · rwa [Circuit.unreadableAs_window hin] at hend
    · rwa [Circuit.unreadableAs_settled hst] at hend
    · rwa [Circuit.unreadableAs_marked hst] at hend

end Sys2Proof.Machine
end

section
/-! Settles O47: the writes of a restore, its end, and its failure (R130, R131). -/

namespace Sys2Proof.Machine

variable {s u : State} {r : Request} {c p : Nat} {earlier : OutsideState}

/-! ### The events -/

/-- R130, R131: the completion of a restore write frees the port and goes on to the next entry, or ends the restore. -/
theorem exec_restoreWriteComplete (h : s.inProgress .sweep r) (hstale : r.stale = false)
    (hjob : s.sweep.job = .restore c p earlier) :
    exec .restoreWriteComplete s = .next (State.endEvent
      (if p < (s.circuit c).entries.length then s.freePort.runJob (.restore c (p + 1) earlier)
      else s.freePort.finishRestore c .settled .done none)) := by
  obtain ⟨hreset, n, hport⟩ := h
  have hof : s.portOf .sweep = some r := by simp [State.portOf, hport]
  refine (live_running s State.completeRestoreWrite hreset).trans ?_
  simp [State.completeRestoreWrite, hof, hjob, hstale]

/-- R45, R131: the second failure of a restore write is recorded, and ends the restore at its position. -/
theorem exec_restoreFails {i : Instr} (hi : failsAccess i) (h : s.inProgress .sweep r) (hretry : r.retry = true)
    (hstale : r.stale = false) (hjob : s.sweep.job = .restore c p earlier) :
    exec i s = .next ((s.sweepFaulted r).finishRestore c earlier.toState (.failed p) (s.circuit c).cause).endEvent := by
  have hfail : s.freePort.failInternal .sweep r = (s.sweepFaulted r).failSweep := by
    simp [State.failInternal, hstale, State.sweepFaulted, Requester.faultKind]
  have hrestore : (s.sweepFaulted r).sweep.job = .restore c p earlier :=
    (congrArg Sweep.job State.sweepFaulted_readEnded.sweep).trans hjob
  rw [exec_secondFailure hi h (by decide) hretry, hfail, ← State.circuit_of_store State.sweepFaulted_readEnded.store]
  unfold State.failSweep
  rw [hrestore]

/-! ### The restore comes to an entry (R120, R130) -/

/-- R120, R130: the write of the entry's baseline word is requested, or held while the posted-write buffer holds a write
to its address. -/
theorem State.runJob_restore (v : State) (k q : Nat) (o : OutsideState) (hout : v.sweepOutstanding = false) :
    v.runJob (.restore k (q + 1) o) = { v with
      sweep := { v.sweep with
        job := .restore k (q + 1) o
        held := if v.bufferHolds (v.connAddr ((v.circuit k).entries.getD q 0)) then
          some (v.connAddr ((v.circuit k).entries.getD q 0), some (((v.circuit k).baseline.getD []).getD q 0))
          else none }
      arbiter := { v.arbiter with
        sweep := if v.bufferHolds (v.connAddr ((v.circuit k).entries.getD q 0)) then none
          else some {
            addr := v.connAddr ((v.circuit k).entries.getD q 0)
            write := some (((v.circuit k).baseline.getD []).getD q 0, 0xF) } } } :=
  State.runJob_ready v _ (v.connAddr ((v.circuit k).entries.getD q 0))
    (some (((v.circuit k).baseline.getD []).getD q 0)) rfl hout

/-! ### The restore ends (R119, R131) -/

section
variable (u) (st : CircuitState) (outcome : RestoreOutcome) (cause : Option VerdictCause)

/-- R131: the circuit's record is taken, its report owed, and RESTORE_DONE raised, before the job ends. -/
def State.restoreTold (c : Nat) : State :=
  (((u.mapCircuit c fun r => { r with restoreOutcome := some outcome, cause }).setCircuitState c st).oweCircuit
    c).raise .restoreDone

theorem State.finishRestore_eq :
    u.finishRestore c st outcome cause = (u.restoreTold st outcome cause c).endJob.startNextJob := rfl

theorem State.restoreTold_circuit (k : Nat) :
    (u.restoreTold st outcome cause c).circuit k = if k = c then
        { u.circuit c with state := st, restoreOutcome := some outcome, cause }
      else u.circuit k := by
  unfold State.restoreTold
  rw [State.circuit_of_store (State.raise_store _ _), State.oweCircuit_circuit, State.setCircuitState_circuit,
    State.mapCircuit_circuit, State.mapCircuit_circuit, if_pos rfl]
  split <;> rfl

theorem State.restoreTold_storeReport : StoreReportOnly u (u.restoreTold st outcome cause c) :=
  StoreReportOnly.after (State.raise_storeReport _ _) <|
    StoreReportOnly.after (v := State.setCircuitState _ c st) ⟨_, _, rfl⟩ <|
      StoreReportOnly.after (State.setCircuitState_storeReport _ c st) (u.putCircuit_storeReport c _)

theorem State.restoreTold_owes : Table.get false (u.restoreTold st outcome cause c).report.owed c = true := by
  unfold State.restoreTold
  rw [(State.raise_marks _ _).1, State.oweCircuit_owes, if_pos rfl]

/-- R131, R169: RESTORE_DONE, at bit 8, is raised. -/
theorem State.restoreTold_pends (h : u.report.enables.getLsbD 8 = true) :
    (u.restoreTold st outcome cause c).report.pending.getLsbD 8 = true := by
  have henables := (State.setCircuitState_causes
    (s := u.mapCircuit c fun r => { r with restoreOutcome := some outcome, cause }) c st).2
  exact State.raise_pends .restoreDone ((congrArg (·.getLsbD 8) henables).trans h)

end

/-- R119, R131: from `s` to `t` the restore of circuit `c` ends, which leaves its record as `last`: the first waiting
job starts, the circuit's report is owed, and RESTORE_DONE is raised. -/
def State.restoreEnds (s t : State) (c : Nat) (last : Circuit) : Prop :=
  s.waitingJobStarts t c last s.sweep.restoreList ∧ Table.get false t.report.owed c = true
    ∧ (s.report.enables.getLsbD 8 = true → t.report.pending.getLsbD 8 = true)
    ∧ t.window = s.window ∧ t.trace = s.trace ∧ t.pass = s.pass

/-- R119, R131: with the write ended, the end of the restore takes the circuit's record and starts the first waiting
job. -/
theorem ReadEnded.finishRestore_ends (h : ReadEnded s u) (st : CircuitState) (outcome : RestoreOutcome)
    (cause : Option VerdictCause) :
    s.restoreEnds (u.finishRestore c st outcome cause) c
        { s.circuit c with state := st, restoreOutcome := some outcome, cause }
      ∧ (u.finishRestore c st outcome cause).arbiter.fault = u.arbiter.fault := by
  have hcircuit := State.restoreTold_circuit u st outcome cause (c := c)
  have howes := State.restoreTold_owes u st outcome cause (c := c)
  have hpends := State.restoreTold_pends u st outcome cause (c := c)
  obtain ⟨store, report, htold⟩ := State.restoreTold_storeReport u st outcome cause (c := c)
  rw [State.finishRestore_eq]
  generalize u.restoreTold st outcome cause c = v at hcircuit howes hpends htold ⊢
  subst htold
  rw [h.enables] at hpends
  simp only [State.circuit_of_store h.store] at hcircuit
  have hon := State.startNextJob_sweepsOn (State.endJob { u with store, report })
  have hmoves := State.startNextJob_moves (c := .classify) (State.endJob { u with store, report })
  refine ⟨⟨?_, hon.owed c howes, fun he => hmoves.kept.pending nofun 8 (hpends he), hon.window.trans h.window,
    hon.trace.trans h.trace, hon.pass.trans h.freed.pass⟩, hon.fault⟩
  refine State.startNextJob_waitingJobStarts c _ s.sweep.restoreList
    ⟨h.freed.port, h.freed.sweep, h.freed.layout, h.freed.pass⟩ h.journal ?_ hcircuit
  rw [← h.sweep, State.endJob_sweep]

/-! ### O47 -/

/-- Settles O47: with entries left `runJob_restore`; both ends of the restore by `finishRestore_ends`. -/
theorem restoreWritesAndEnds : Obligations.RestoreWritesAndEnds := by
  unfold Obligations.RestoreWritesAndEnds
  intro s r c p earlier hprogress hstale hidle hjob
  dsimp only
  have hexec := exec_restoreWriteComplete hprogress hstale hjob
  refine ⟨fun hp => ?_, fun hp => ?_, fun i hi hretry => ?_⟩
  · have hout : s.freePort.sweepOutstanding = false := State.sweepOutstanding_eq_false _ hidle nofun
    rw [hexec, if_pos hp, State.runJob_restore _ c p earlier hout, ← State.bufferHolds_eq]
    rfl
  · rw [if_neg (Nat.not_lt.mpr hp)] at hexec
    exact ⟨_, hexec, (State.freePort_readEnded.finishRestore_ends .settled .done none).1⟩
  · obtain ⟨hends, hfault⟩ := (State.sweepFaulted_readEnded (s := s) (r := r)).finishRestore_ends (c := c)
      earlier.toState (.failed p) (s.circuit c).cause
    exact ⟨_, exec_restoreFails hi hprogress hretry hstale hjob, hfault.trans State.sweepFaulted_fault, hends⟩

end Sys2Proof.Machine
end

section
/-! Settles O40: a RESTORE (R128, R129, R130). -/

namespace Sys2Proof.Machine

variable {s : State} {c : Nat}

/-! ### The checks (R128) -/

section
variable (hc : circuitField s.directive.chain = c)
include hc

theorem State.restoreRefusal_number (h : 512 ≤ c) : s.restoreRefusal = some ⟨.refusedRange, 0⟩ := by
  subst hc
  exact if_pos h

theorem State.restoreRefusal_window (h : c < 512) (hw : s.window.state ≠ .quiet) :
    s.restoreRefusal = some ⟨.refusedState, 512⟩ := by
  subst hc
  exact (if_neg (Nat.not_le.mpr h)).trans (if_pos hw)

theorem State.restoreRefusal_state (h : c < 512) (hw : s.window.state = .quiet)
    (hst : (s.circuit c).state ≠ .drifted ∧ (s.circuit c).state ≠ .faulted) :
    s.restoreRefusal = some ⟨.refusedState, 0⟩ := by
  subst hc
  exact (if_neg (Nat.not_le.mpr h)).trans ((if_neg (not_not.mpr hw)).trans (if_pos hst))

/-- R128: the checks of a RESTORE that names a circuit which may be restored. -/
theorem State.restoreRefusal_named
    (h : c < 512 ∧ s.window.state = .quiet ∧ ((s.circuit c).state = .drifted ∨ (s.circuit c).state = .faulted)) :
    s.restoreRefusal =
      if (s.circuit c).baseline = none then some ⟨.refusedRange, 1⟩
      else (firstPosition (· == c) s.sweep.restoreList).elim
        (if 8 ≤ s.sweep.restoreList.length then some ⟨.busy, 0⟩ else none) fun p => some ⟨.duplicate, p⟩ := by
  obtain ⟨hrange, hw, hst⟩ := h
  subst hc
  refine (if_neg (Nat.not_le.mpr hrange)).trans ((if_neg (not_not.mpr hw)).trans ((if_neg (by tauto)).trans ?_))
  cases firstPosition (· == circuitField s.directive.chain) s.sweep.restoreList <;> rfl

/-- R128: a RESTORE that no check refuses names a circuit DRIFTED or FAULTED. -/
theorem State.restorable_of_restoreRefusal (h : s.restoreRefusal = none) :
    (s.circuit c).state = .drifted ∨ (s.circuit c).state = .faulted := by
  by_contra hst
  rcases Nat.lt_or_ge c 512 with hrange | hrange
  · by_cases hw : s.window.state = .quiet
    · simp [State.restoreRefusal_state hc hrange hw (not_or.mp hst)] at h
    · simp [State.restoreRefusal_window hc hrange hw] at h
  · simp [State.restoreRefusal_number hc hrange] at h

end

/-! ### The restore is listed (R119, R128, R129) -/

/-- R129: circuit `c` is appended to the restore list. -/
def State.restoreListed (s : State) (c : Nat) : State :=
  State.wantSummary { s with sweep := { s.sweep with restoreList := s.sweep.restoreList ++ [c] } }

theorem State.acceptRestore_eq (hc : circuitField s.directive.chain = c) :
    s.acceptRestore = (s.restoreListed c).startNextJob := by
  subst hc
  rfl

theorem State.acceptRestore_sweepsOn : SweepsOn s s.acceptRestore :=
  SweepsOn.after (State.startNextJob_sweepsOn _) ⟨rfl, rfl, rfl, rfl, rfl, fun _ => rfl, fun _ => id, fun _ => id⟩

/-- R119: with a job running the restore waits in the list. -/
theorem State.restoreListed_waits (hj : s.sweep.job ≠ .none) :
    (s.restoreListed c).startNextJob = s.restoreListed c := State.startNextJob_busy _ hj

/-- R119, R130: no circuit but the head of the restore list changes when a restore is listed. -/
theorem State.restoreListed_others {k : Nat} (hk : k ≠ c) (hlist : s.sweep.restoreList = []) :
    (s.restoreListed c).startNextJob.circuit k = s.circuit k := by
  by_cases hj : s.sweep.job = .none
  · refine State.startNextJob_circuit k hj ?_
    simpa [State.restoreListed, State.wantSummary, hlist] using Ne.symm hk
  · rw [State.restoreListed_waits hj]
    rfl

/-! ### The restore starts at once (R119, R130) -/

/-- R120, R130: in `t` the restore of circuit `c` has started from `s`, where it was `o`. -/
structure RestoreStarted (s t : State) (c : Nat) (o : OutsideState) : Prop where
  restoreList : t.sweep.restoreList = []
  circuit : t.circuit c = { s.circuit c with state := .restoring }
  job : t.sweep.job = .restore c 1 o
  owed : Table.get false t.report.owed c = true
  access : s.sweepOutstanding = false →
    let first := s.connAddr ((s.circuit c).entries.getD 0 0)
    let word := ((s.circuit c).baseline.getD []).getD 0 0
    t.arbiter.sweep = (if s.bufferHolds first then none else some { addr := first, write := some (word, 0xF) })
      ∧ t.sweep.held = if s.bufferHolds first then some (first, some word) else none

/-- R16, R130: the start of a restore makes the circuit's report owed. -/
theorem State.restoring_owes {rest : List Nat} (h : (s.circuit c).state ≠ .restoring) :
    Table.get false (s.restoring c rest).report.owed c = true :=
  State.setCircuitState_owes _ c .restoring h

theorem State.restoreListed_starts {o : OutsideState} (ho : (s.circuit c).state = o.toState)
    (hj : s.sweep.job = .none) (hlist : s.sweep.restoreList = []) (hcapture : s.sweep.captureRequest = none)
    (hdrift : s.sweep.driftRequest = false) :
    RestoreStarted s (s.restoreListed c).startNextJob c o := by
  have hone : (s.restoreListed c).sweep.restoreList = [c] := congrArg (· ++ [c]) hlist
  have houtside : ((s.restoreListed c).circuit c).state.outside = some o :=
    (congrArg CircuitState.outside ho).trans o.outside_toState
  have hidle : (s.circuit c).state ≠ .restoring := by
    rw [ho]
    cases o <;> decide
  rw [State.startNextJob_restore (v := s.restoreListed c) hj hcapture hdrift, State.startRestore_cons c [] hone,
    houtside, Option.getD_some]
  have hcircuit : ((s.restoreListed c).restoring c []).circuit c = { s.circuit c with state := .restoring } :=
    (State.restoring_circuit c [] c).trans (if_pos rfl)
  have hframe := State.restoring_frame (v := s.restoreListed c) c []
  have howed := State.restoring_owes (s := s.restoreListed c) (rest := []) hidle
  generalize (s.restoreListed c).restoring c [] = v at hcircuit hframe howed ⊢
  have hrun := v.runJob_frame (.restore c 1 o)
  refine ⟨?_, ?_, ?_, (State.runJob_sweepsOn v _).owed c howed, fun hout => ?_⟩
  · rw [hrun, hframe]
  · rw [hrun]
    exact hcircuit
  · rw [hrun]
  · have hout' : v.sweepOutstanding = false := by
      rw [hframe]
      exact hout
    rw [v.runJob_restore c 0 o hout', hcircuit, hframe]
    exact ⟨rfl, rfl⟩

/-! ### O40 -/

/-- Settles O40: `restoreListed_waits` and `restoreListed_starts`, then the checks in order. -/
theorem restoreListedOrStarted : Obligations.RestoreListedOrStarted := by
  unfold Obligations.RestoreListedOrStarted
  refine ⟨fun s hand hrefusal => ?_, fun s _ => ?_⟩
  · rw [← circuitField_eq]
    generalize hc : circuitField s.directive.chain = c
    refine ⟨_, exec_directive_done s rfl hand hrefusal, ?_⟩
    have hon := s.acceptRestore_sweepsOn
    have hstate := State.restorable_of_restoreRefusal hc hrefusal
    rw [State.answerDirective_plain _ _ rfl]
    rw [State.acceptRestore_eq hc] at hon ⊢
    refine ⟨fun hj => ?_, fun hj hlist hcapture hdrift => ?_, fun k hk hlist _ => State.restoreListed_others hk hlist,
      hon.window, hon.trace, hon.pass⟩
    · rw [State.restoreListed_waits hj]
      exact ⟨rfl, rfl⟩
    · obtain ⟨o, ho⟩ : ∃ o : OutsideState, (s.circuit c).state = o.toState :=
        hstate.elim (fun h => ⟨.drifted, h⟩) fun h => ⟨.faulted, h⟩
      have hstarted := State.restoreListed_starts ho hj hlist hcapture hdrift
      refine ⟨hstarted.restoreList, hstarted.circuit, ⟨o, ho, hstarted.job⟩, hstarted.owed, fun hfree hport => ?_⟩
      simp only [← State.bufferHolds_eq]
      exact hstarted.access (s.sweepOutstanding_eq_false hfree hport)
  · rw [← circuitField_eq]
    generalize hc : circuitField s.directive.chain = c
    refine ⟨State.restoreRefusal_number hc, State.restoreRefusal_window hc,
      fun h hw hd hf => State.restoreRefusal_state hc h hw ⟨hd, hf⟩, fun hnamed hbase => ?_,
      fun p hnamed hbase hp hat hfirst => ?_, fun hnamed hbase hfresh => ?_⟩
    all_goals rw [State.restoreRefusal_named hc hnamed]
    · rw [if_pos hbase]
    · rw [if_neg hbase, firstPosition_first hp (by simpa using hat) fun q hq => by simpa using hfirst q hq]
      rfl
    · rw [if_neg hbase, firstPosition_eq_none.mpr fun k hk => by simpa using ne_of_mem_of_not_mem hk hfresh]
      rfl

end Sys2Proof.Machine
end

section
/-! Settles O25: the steady timer and the verify limit conclude the window. -/

namespace Sys2Proof.Machine

variable {s u t : State}

/-! ### The window concludes (R143) -/

/-- From `u` to `t` the window concludes (R143). -/
structure WindowConcluded (u t : State) : Prop where
  window : t.window = { u.window with state := .concluded }
  windowOwed : t.report.windowOwed = true
  verdict : t.verdict = { limit := u.verdict.limit.stop, steady := u.verdict.steady.stop }
  evidence : ∀ ch, t.evidenceOf ch = { u.evidenceOf ch with silence := .stopped }
  store : t.store = u.store
  owed : t.report.owed = u.report.owed
  rest : t.journal = u.journal ∧ t.pass = u.pass ∧ t.sweep = u.sweep
  raised : u.report.enables.getLsbD 0 = true → t.report.pending.getLsbD 0 = true

theorem State.conclude_concludes (hw : u.window.state = .verifying) : WindowConcluded u u.conclude := by
  have howed := u.conclude_owed
  have hwindowOwed := u.conclude_windowOwed (by rw [hw]; decide)
  have hevidence := u.conclude_evidenceOf
  have hpends := u.conclude_pends
  have hframe := u.conclude_frame
  generalize u.conclude = t at *
  refine ⟨?_, hwindowOwed, ?_, hevidence, ?_, howed, ⟨?_, ?_, ?_⟩, hpends⟩
  all_goals rw [hframe]

/-! ### The PENDING circuits silenced (R139, R144) -/

/-- R139: a verdict taken makes the circuit's CIRCUIT report owed, and every report that was owed stays owed. -/
theorem State.changeVerdict_owed (c : Nat) (st : CircuitState) (cause : Option VerdictCause) (k : Nat)
    (h : k = c ∨ Table.get false s.report.owed k = true) :
    Table.get false (s.changeVerdict c st cause).report.owed k = true := by
  unfold State.changeVerdict
  rw [State.oweCircuit_owes]
  by_cases hk : k = c
  · exact if_pos hk
  · rw [if_neg hk]
    exact State.setCircuitState_owed _ c st k (h.resolve_left hk)

/-- R139: a verdict taken leaves the causes that are enabled as they were. -/
theorem State.changeVerdict_enables (c : Nat) (st : CircuitState) (cause : Option VerdictCause) :
    (s.changeVerdict c st cause).report.enables = s.report.enables :=
  (State.setCircuitState_causes c st).2

/-- The PENDING circuits, in ascending order. -/
def State.pendingCircuits (s : State) : List Nat := s.circuitsWhere fun r => r.state = .pending

theorem State.mem_pendingCircuits (c : Nat) : c ∈ s.pendingCircuits ↔ c < 512 ∧ (s.circuit c).state = .pending := by
  simp [State.pendingCircuits, State.circuitsWhere, Config.circuits]

theorem State.pendingCircuits_nodup : s.pendingCircuits.Nodup := List.nodup_range.filter _

theorem State.pendingSilenced_eq : s.pendingSilenced =
    s.forEach s.pendingCircuits fun s c => s.changeVerdict c .silent (some .noEvidence) := rfl

theorem State.pendingSilenced_storeReport : StoreReportOnly s s.pendingSilenced :=
  State.forEach_induct s (StoreReportOnly s) _ _
    (fun v c _ h => StoreReportOnly.after (v.changeVerdict_storeReport c _ _) h) ⟨_, _, rfl⟩

theorem State.pendingSilenced_enables : s.pendingSilenced.report.enables = s.report.enables := by
  rw [State.pendingSilenced_eq]
  generalize s.pendingCircuits = l
  exact State.forEach_keeps s (fun v => v.report.enables) (fun s c => s.changeVerdict c .silent (some .noEvidence))
    (fun _ c => State.changeVerdict_enables c .silent _) l

/-- R144: the PENDING circuits are SILENT for want of evidence, a counted change, and the others are as they were. -/
theorem State.pendingSilenced_circuit (c : Nat) :
    s.pendingSilenced.circuit c =
      if c < 512 ∧ (s.circuit c).state = .pending then
        { s.circuit c with
          state := .silent, cause := some .noEvidence, verdictChanges := bump (s.circuit c).verdictChanges }
      else s.circuit c := by
  simp only [← State.mem_pendingCircuits]
  exact State.forEach_circuit (fun s c => s.changeVerdict c .silent (some .noEvidence))
    (fun r => { r with state := .silent, cause := some .noEvidence, verdictChanges := bump r.verdictChanges })
    (fun v c k => v.changeVerdict_circuit c .silent _ k) s.pendingCircuits State.pendingCircuits_nodup c

/-- R144: and the CIRCUIT report of each is owed. -/
theorem State.pendingSilenced_owes (c : Nat) (hc : c < 512) (h : (s.circuit c).state = .pending) :
    Table.get false s.pendingSilenced.report.owed c = true := by
  have hmem := (State.mem_pendingCircuits c).mpr ⟨hc, h⟩
  have hpending : ∀ k ∈ s.pendingCircuits, (s.circuit k).state = .pending :=
    fun k hk => ((State.mem_pendingCircuits k).mp hk).2
  have hnodup := State.pendingCircuits_nodup (s := s)
  rw [State.pendingSilenced_eq]
  generalize s.pendingCircuits = l at *
  exact State.forEach_owes (fun s c => s.changeVerdict c .silent (some .noEvidence)) (fun r => r.state = .pending)
    (fun v c k hk => (v.changeVerdict_circuit c .silent _ k).trans (if_neg hk))
    (fun _ c _ => State.changeVerdict_owed c .silent _ c (.inl rfl))
    (fun _ c k hk => State.changeVerdict_owed c .silent _ k (.inr hk)) l hnodup hpending c hmem

/-! ### The two expiries (R133, R142, R144) -/

/-- R133: the steady timer has expired. -/
def State.steadyExpired (s : State) : State :=
  { s with verdict := { s.verdict with steady := VerdictTimer.expire } }

/-- R133: the verify limit has expired. -/
def State.limitExpired (s : State) : State :=
  { s with verdict := { s.verdict with limit := VerdictTimer.expire } }

theorem exec_steadyExpiry (hr : s.inReset = false) (hw : s.window.state = .verifying)
    (hrun : s.verdict.steady.running = true) :
    exec .steadyExpiry s = .next s.steadyExpired.conclude.endEvent := by
  refine (live_running s State.expireSteady hr).trans ?_
  unfold State.expireSteady
  rw [if_pos ⟨hw, hrun⟩]
  rfl

theorem exec_verifyLimitExpiry (hr : s.inReset = false) (hw : s.window.state = .verifying)
    (hrun : s.verdict.limit.running = true) :
    exec .verifyLimitExpiry s = .next s.pendingSilenced.limitExpired.conclude.endEvent :=
  (live_running s State.expireVerifyLimit hr).trans (by rw [s.expireVerifyLimit_eq ⟨hw, hrun⟩]; rfl)

/-- Settles O25: each expiry is `conclude_concludes` of what it made before: the verify limit first silences the PENDING
circuits. -/
theorem timersConcludeWindow : Obligations.TimersConcludeWindow := by
  unfold Obligations.TimersConcludeWindow
  intro s hreset hw
  refine ⟨fun hrun => ⟨_, exec_steadyExpiry hreset hw hrun, ?_⟩,
    fun hrun => ⟨_, exec_verifyLimitExpiry hreset hw hrun, ?_⟩⟩
  · have hend : WindowConcluded s.steadyExpired s.steadyExpired.conclude := State.conclude_concludes hw
    generalize s.steadyExpired.conclude = t at hend ⊢
    obtain ⟨hjournal, hpass, hsweep⟩ := hend.rest
    exact ⟨hend.window, hend.windowOwed, hend.verdict, hend.evidence, hend.store, hjournal, hpass, hsweep, hend.raised⟩
  · have hcircuit := State.pendingSilenced_circuit (s := s)
    have howes := State.pendingSilenced_owes (s := s)
    have henables := State.pendingSilenced_enables (s := s)
    obtain ⟨st, rp, hframe⟩ := State.pendingSilenced_storeReport (s := s)
    generalize s.pendingSilenced = v at *
    have hend : WindowConcluded v.limitExpired v.limitExpired.conclude :=
      State.conclude_concludes (by rw [hframe]; exact hw)
    generalize v.limitExpired.conclude = t at hend ⊢
    have hkept (c : Nat) : t.circuit c = v.circuit c := State.circuit_of_store hend.store c
    obtain ⟨hjournal, hpass, hsweep⟩ := hend.rest
    refine ⟨?window, hend.windowOwed, ?verdict, fun ch => ?evidence, fun c hc hp => ⟨?silenced, ?owed⟩,
      fun c hc hp => ?others, ?journal, ?pass, ?sweep, fun he => hend.raised (by rwa [← henables] at he)⟩
    case silenced => exact (hkept c).trans ((hcircuit c).trans (if_pos ⟨hc, hp⟩))
    case owed =>
      rw [hend.owed]
      exact howes c hc hp
    case others => exact (hkept c).trans ((hcircuit c).trans (if_neg fun h => hp h.2))
    case window => rw [hend.window, hframe]; rfl
    case verdict => rw [hend.verdict, hframe]; rfl
    case evidence => rw [hend.evidence, hframe]; rfl
    case journal => rw [hjournal, hframe]; rfl
    case pass => rw [hpass, hframe]; rfl
    case sweep => rw [hsweep, hframe]; rfl

end Sys2Proof.Machine
end

section
/-! The Directive Unit: seeking a marked slot, deciding an outcome, and writing it (R151, R152, R157). -/

namespace Sys2Proof.Machine

variable (s : State)

/-- R151: word 0 of a slot of the ring. -/
theorem State.slotAddr_zero (slot : Nat) : s.slotAddr slot 0 = s.ringBase + 32 * slot := Nat.add_zero _

/-! ### Seeking the next slot (R152) -/

/-- R152: without the mark of the slot waited for, the unit waits on. -/
theorem State.seekSlot_unmarked (h : Table.get false s.directive.ready s.directive.fetchSlot = false) :
    s.seekSlot = s := by
  simp [State.seekSlot, h]

/-- R152: the mark of the slot waited for leaves the ready set, every other mark stays, and the slot's word 0 is read. -/
theorem State.seekSlot_marked (hwaits : s.directive.step = .idle ∨ s.directive.step = .chainWait)
    (h : Table.get false s.directive.ready s.directive.fetchSlot = true) :
    ∃ ready, (∀ n, Table.get false ready n =
        if n = s.directive.fetchSlot then false else Table.get false s.directive.ready n)
      ∧ s.seekSlot = { s with
          arbiter := { s.arbiter with directive := some { addr := s.ringBase + 32 * s.directive.fetchSlot } }
          directive := { s.directive with ready, step := .fetching [] } } := by
  refine ⟨_, Table.get_set false s.directive.ready s.directive.fetchSlot false, ?_⟩
  unfold State.seekSlot
  dsimp only
  rw [if_pos ⟨hwaits, h⟩, State.slotAddr_zero]
  rfl

variable {s}

/-- R152, R168: an event that ends with the unit seeking its next slot leaves it waiting, or takes the mark that stands
already. -/
theorem exec_seeks {c : Instr} {u : State} (hexec : exec c s = .next u.seekSlot.endEvent)
    (hwaits : u.directive.step = .idle ∨ u.directive.step = .chainWait) :
    (Table.get false u.directive.ready u.directive.fetchSlot = false → exec c s = .next u.endEvent)
      ∧ (Table.get false u.directive.ready u.directive.fetchSlot = true →
        ∃ ready, (∀ n, Table.get false ready n =
            if n = u.directive.fetchSlot then false else Table.get false u.directive.ready n)
          ∧ exec c s = .next (State.endEvent { u with
              arbiter := { u.arbiter with directive := some { addr := u.ringBase + 32 * u.directive.fetchSlot } }
              directive := { u.directive with ready, step := .fetching [] } })) := by
  refine ⟨fun hmark => ?_, fun hmark => ?_⟩
  · rw [hexec, u.seekSlot_unmarked hmark]
  · obtain ⟨ready, hready, hseek⟩ := u.seekSlot_marked hwaits hmark
    exact ⟨ready, hready, by rw [hexec, hseek]⟩

variable (s)

/-! ### Deciding and writing an outcome (R157) -/

/-- R157: COMPLETING entered with these writes left, the first of them requested with all four lanes. -/
theorem State.startCompleting_cons (slot : Nat) (w : Word) (rest : List (Nat × Word)) (advance : Nat) :
    s.startCompleting ((slot, w) :: rest) advance = { s with
      arbiter := { s.arbiter with directive := some { addr := s.ringBase + 32 * slot, write := some (w, 0xF) } }
      directive := { s.directive with step := .completing ((slot, w) :: rest) advance } } := by
  unfold State.startCompleting
  dsimp only
  rw [State.slotAddr_zero]
  rfl

theorem DirectiveUnit.completionWords_cons (d : DirectiveUnit) (a : DirectiveAnswer) :
    ∃ slot w rest, d.completionWords a = (slot, w) :: rest := by
  obtain ⟨⟨slot, w⟩, rest, h⟩ := List.exists_cons_of_ne_nil (d.completionWords_ne_nil a)
  exact ⟨slot, w, rest, h⟩

/-- R157: an outcome decided: its words are left to write, the first is requested, and a refusal raises REFUSED. -/
theorem State.answerDirective_cons {a : DirectiveAnswer} {slot : Nat} {w : Word} {rest : List (Nat × Word)}
    (hwords : s.directive.completionWords a = (slot, w) :: rest) :
    s.answerDirective a = { s with
      arbiter := { s.arbiter with directive := some { addr := s.ringBase + 32 * slot, write := some (w, 0xF) } }
      directive := { s.directive with step := .completing ((slot, w) :: rest) s.directive.chain.length }
      report := (if a.outcome.isRefusal then s.raise .refused else s).report } := by
  unfold State.answerDirective
  split
  · rw [State.raise_frame]
    dsimp only
    rw [hwords, State.startCompleting_cons]
    rfl
  · dsimp only
    rw [hwords, State.startCompleting_cons]

end Sys2Proof.Machine
end

section
/-! Settles O42: the end of a completion write (R157, R159). -/

namespace Sys2Proof.Machine

variable {s : State} {r : Request} {slot : Nat} {w : Word} {left : List (Nat × Word)} {advance : Nat}

theorem exec_completionWriteEnd (h : s.inProgress .directive r) (hstep : s.directive.step = .completing left advance) :
    exec .directiveCompletionWriteEnd s = .next (s.freePort.endCompletionWrite left advance).endEvent := by
  obtain ⟨hreset, n, hport⟩ := h
  have hof : s.portOf .directive = some r := by simp [State.portOf, hport]
  refine (live_running s State.completeCompletionWrite hreset).trans ?_
  simp [State.completeCompletionWrite, hof, hstep]

/-- R151, R157: the unit past the chain, its slot assembly empty. -/
def State.chainPassed (s : State) (advance : Nat) : State :=
  { s with directive := { s.directive with
      nextSlot := (s.directive.nextSlot + advance) % 64, step := .idle, chain := [] } }

theorem State.endCompletionWrite_last (done : Nat × Word) :
    s.endCompletionWrite [done] advance = (s.chainPassed advance).seekSlot := rfl

/-- R151: past the chain the unit waits for the slot that follows it; the slots wrap. -/
theorem State.chainPassed_fetchSlot :
    (s.chainPassed advance).directive.fetchSlot = (s.directive.nextSlot + advance) % 64 :=
  Nat.mod_mod _ 64

theorem State.endCompletionWrite_next (done : Nat × Word) (slot : Nat) (w : Word) (rest : List (Nat × Word)) :
    s.endCompletionWrite (done :: (slot, w) :: rest) advance = s.startCompleting ((slot, w) :: rest) advance := rfl

/-! ### The second failure (R45, R159) -/

/-- R45, R46: what the second failure of a Directive Unit access leaves in the fault record and the marks. -/
def State.directiveFaulted (s : State) (r : Request) : State :=
  { s with
    arbiter := { s.arbiter with fault := ⟨r.addr, .directive, 0⟩ }
    report := (s.wantSummary.raise .busFault).report }

theorem State.writeFault_raise_directive (s : State) (r : Request) :
    (s.freePort.writeFault r.addr .directive 0).raise .busFault = (s.directiveFaulted r).freePort := by
  have hreport : ((s.freePort.writeFault r.addr .directive 0).raise .busFault).report
      = (s.wantSummary.raise .busFault).report := State.raise_report_congr _ _ rfl
  unfold State.directiveFaulted
  rw [← hreport, State.raise_frame]
  rfl

/-- R45: a second failure is recorded and raised, and the Directive Unit told. -/
theorem exec_directiveFails {i : Instr} (hi : failsAccess i) (h : s.inProgress .directive r) (hretry : r.retry = true)
    (hstale : r.stale = false) : exec i s = .next (s.directiveFaulted r).freePort.failDirective.endEvent := by
  rw [exec_secondFailure hi h (by decide) hretry, ← s.writeFault_raise_directive r]
  simp [State.failInternal, hstale, Requester.faultKind]

/-- R159: a completion write that has failed twice ends as one that is done. -/
theorem State.failDirective_completing (h : s.directive.step = .completing left advance) :
    s.failDirective = s.endCompletionWrite left advance := by
  unfold State.failDirective
  rw [h]

/-- Settles O42: what is left to write decides, and a second failure is told to the unit as the end of the write. -/
theorem completionWriteEnds : Obligations.CompletionWriteEnds := by
  unfold Obligations.CompletionWriteEnds
  intro s r slot w left advance hport hstep
  have hend := exec_completionWriteEnd hport hstep
  have hlast (hleft : left = []) : exec .directiveCompletionWriteEnd s
      = .next (s.freePort.chainPassed advance).seekSlot.endEvent := by
    rw [hend, hleft, State.endCompletionWrite_last]
  have hslot : (s.freePort.chainPassed advance).directive.fetchSlot = (s.directive.nextSlot + advance) % 64 :=
    State.chainPassed_fetchSlot
  have hseeks (hleft : left = []) := exec_seeks (hlast hleft) (.inl rfl)
  rw [hslot] at hseeks
  refine ⟨?next, fun hleft => (hseeks hleft).1, fun hleft => (hseeks hleft).2, ⟨_, hend⟩,
    fun i hi hretry hstale => ?fails⟩
  case next =>
    rintro slot' w' rest rfl
    rw [hend, State.endCompletionWrite_next, State.startCompleting_cons]
    rfl
  case fails =>
    have hunit : (s.directiveFaulted r).freePort.directive.step = .completing ((slot, w) :: left) advance := hstep
    rw [exec_directiveFails hi hport hretry hstale, State.failDirective_completing hunit]
    exact (exec_completionWriteEnd (s := s.directiveFaulted r) hport hstep).symm

end Sys2Proof.Machine
end

section
/-! Settles O41: the end of a fetch read (R152 to R155). -/

namespace Sys2Proof.Machine

variable {s : State} {r : Request} {words : List Word} {data : Word}

theorem exec_fetchReadComplete (data : Word) (h : s.inProgress .directive r)
    (hstep : s.directive.step = .fetching words) :
    exec (.directiveFetchReadComplete data) s = .next (s.freePort.takeFetchedWord words data).endEvent := by
  obtain ⟨hreset, n, hport⟩ := h
  have hof : s.portOf .directive = some r := by simp [State.portOf, hport]
  refine (live_running s (fun s => s.completeFetchRead data) hreset).trans ?_
  simp [State.completeFetchRead, hof, hstep]

variable (s)

/-! ### The word read (R153) -/

/-- R153: a word 0 with the ready mark clear is discarded. -/
theorem State.takeFetchedWord_stale (h : data.getLsbD 13 = false) :
    s.takeFetchedWord [] data
      = (s.setDirectiveStep (if s.directive.chain = [] then .idle else .chainWait)).seekSlot :=
  if_pos ⟨rfl, h⟩

/-- R153: a word of a ready slot, its eighth apart, is kept and the next one requested. -/
theorem State.takeFetchedWord_kept (h : words ≠ [] ∨ data.getLsbD 13 = true) (hlength : words.length < 7) :
    s.takeFetchedWord words data = { s with
      arbiter := { s.arbiter with
        directive := some { addr := s.ringBase + 32 * s.directive.fetchSlot + 4 * (words.length + 1) } }
      directive := { s.directive with step := .fetching (words ++ [data]) } } := by
  have hready : ¬ (words = [] ∧ readyMark data = false) := by
    rintro ⟨hnil, hclear⟩
    exact h.elim (· hnil) fun hset => Bool.false_ne_true (hclear.symm.trans hset)
  have hread : (words ++ [data]).length < 8 := by
    rw [List.length_append, List.length_singleton]
    omega
  unfold State.takeFetchedWord
  rw [if_neg hready]
  dsimp only
  rw [if_pos hread, List.length_append]
  rfl

/-- R153: the eighth word completes the slot. -/
theorem State.takeFetchedWord_last (hlength : words.length = 7) :
    s.takeFetchedWord words data = s.joinChain (words ++ [data]) := by
  have hsome : ¬ (words = [] ∧ readyMark data = false) := by
    rintro ⟨rfl, -⟩
    cases hlength
  have hread : ¬ (words ++ [data]).length < 8 := by simp [hlength]
  unfold State.takeFetchedWord
  rw [if_neg hsome]
  exact if_neg hread

/-! ### The slot read (R154) -/

/-- The slot's words at the end of the chain in hand. -/
def State.chainJoined (s : State) (slot : List Word) : State :=
  { s with directive := { s.directive with chain := s.directive.chain ++ [slot] } }

/-- R154: with its continuation mark set and room in the chain, the next slot is waited for. -/
theorem State.joinChain_continued {slot : List Word} (hmark : (slot.getD 0 0).getLsbD 12 = true)
    (hroom : s.directive.chain.length < 2) :
    s.joinChain slot = ((s.chainJoined slot).setDirectiveStep .chainWait).seekSlot := by
  have hlength : (s.directive.chain ++ [slot]).length < 3 := by
    rw [List.length_append, List.length_singleton]
    omega
  exact if_pos ⟨hmark, hlength⟩

/-- R154: without the mark, or at the third slot, the chain is complete. -/
theorem State.joinChain_complete {slot : List Word}
    (h : (slot.getD 0 0).getLsbD 12 = false ∨ 2 ≤ s.directive.chain.length) :
    s.joinChain slot = (s.chainJoined slot).checkChain := by
  have hends : ¬ (continuationMark (slot.getD 0 0) = true ∧ (s.directive.chain ++ [slot]).length < 3) := by
    rintro ⟨hmark, hlength⟩
    rcases h with hclear | hfull
    · exact Bool.false_ne_true (hclear.symm.trans hmark)
    · rw [List.length_append, List.length_singleton] at hlength
      omega
  exact if_neg hends

/-! ### The checks of a chain (R155) -/

/-- Section 9.4: the slots of each kind, the counts by their bits. -/
theorem slotsNeeded_eq (k : DirectiveKind) (chain : List (List Word)) :
    slotsNeeded k chain =
      if k = .load then 2
      else if k = .openWindow then
        (if ((chainWord chain 0 1).extractLsb' 16 8).toNat ≤ 4 then 1
          else if ((chainWord chain 0 1).extractLsb' 16 8).toNat ≤ 18 then 2 else 3)
      else if k = .mark then
        (if ((chainWord chain 0 1).extractLsb' 0 8).toNat ≤ 13 then 1
          else if ((chainWord chain 0 1).extractLsb' 0 8).toNat ≤ 27 then 2 else 3)
      else 1 := by
  rw [← openCount_eq, ← markCount_eq]
  cases k <;> rfl

/-- R155: the third slot with the continuation mark. -/
theorem State.chainRefusal_overlong (h : (chainWord s.directive.chain 2 0).getLsbD 12 = true) :
    s.chainRefusal = some ⟨.malformed, 2⟩ := if_pos h

/-- R155: a kind code that names no kind. -/
theorem State.chainRefusal_unnamed (h : (chainWord s.directive.chain 2 0).getLsbD 12 = false)
    (hkind : chainKind s.directive.chain = none) : s.chainRefusal = some ⟨.malformed, 1⟩ := by
  unfold State.chainRefusal
  dsimp only
  rw [if_neg (by simpa [continuationMark, bit] using h), hkind]

/-- R155: the checks of a chain of a named kind. -/
theorem State.chainRefusal_named {k : DirectiveKind} (h : (chainWord s.directive.chain 2 0).getLsbD 12 = false)
    (hkind : chainKind s.directive.chain = some k) :
    s.chainRefusal =
      if s.directive.chain.length < slotsNeeded k s.directive.chain then some ⟨.malformed, 3⟩
      else if s.layout = none ∧ k ≠ .layout then some ⟨.noLayout, 0⟩
      else none := by
  unfold State.chainRefusal
  dsimp only
  rw [if_neg (by simpa [continuationMark, bit] using h), hkind]

theorem State.checkChain_passed (h : s.chainRefusal = none) : s.checkChain = s.setDirectiveStep .checked := by
  unfold State.checkChain
  rw [h]

theorem State.checkChain_refused {a : DirectiveAnswer} (h : s.chainRefusal = some a) :
    s.checkChain = s.answerDirective a := by
  unfold State.checkChain
  rw [h]

variable {s}

/-! ### The event of the slot's eighth word -/

/-- R153, R154: the eighth word of a slot that ends the chain has the chain checked. -/
theorem exec_chainChecked (h : s.inProgress .directive r) (hstep : s.directive.step = .fetching words)
    (hlength : words.length = 7)
    (hends : ((words ++ [data]).getD 0 0).getLsbD 12 = false ∨ 2 ≤ s.directive.chain.length) :
    exec (.directiveFetchReadComplete data) s
      = .next (s.freePort.chainJoined (words ++ [data])).checkChain.endEvent := by
  rw [exec_fetchReadComplete data h hstep, State.takeFetchedWord_last _ hlength,
    s.freePort.joinChain_complete hends]

/-- R155, R157, R168: an event that ends with the check of a chain just completed, which refuses it. -/
theorem exec_chainRefused {c : Instr} {slot : List Word} {a : DirectiveAnswer}
    (hexec : exec c s = .next (s.freePort.chainJoined slot).checkChain.endEvent)
    (ha : (s.freePort.chainJoined slot).chainRefusal = some a) (hrefusal : a.outcome.isRefusal = true) :
    ∃ first w rest,
      ({ s.directive with chain := s.directive.chain ++ [slot] } : DirectiveUnit).completionWords a = (first, w) :: rest
      ∧ exec c s = .next (State.endEvent { s with
          arbiter := { s.arbiter with
            port := none, directive := some { addr := s.ringBase + 32 * first, write := some (w, 0xF) } }
          directive := { s.directive with
            chain := s.directive.chain ++ [slot]
            step := .completing ((first, w) :: rest) (s.directive.chain ++ [slot]).length }
          report := (s.raise .refused).report }) := by
  obtain ⟨first, w, rest, hwords⟩ := (s.freePort.chainJoined slot).directive.completionWords_cons a
  refine ⟨first, w, rest, hwords, ?_⟩
  have hraise : ((s.freePort.chainJoined slot).raise .refused).report = (s.raise .refused).report :=
    State.raise_report_congr s .refused rfl
  rw [hexec, State.checkChain_refused _ ha, State.answerDirective_cons _ hwords, if_pos hrefusal, hraise]
  rfl

/-- Settles O41: the word read, the slot it completes, and the chain that the slot completes. -/
theorem fetchReadCompletes : Obligations.FetchReadCompletes := by
  unfold Obligations.FetchReadCompletes
  intro s r words data hport hstep
  dsimp only
  have hread := exec_fetchReadComplete data hport hstep
  refine ⟨fun hnil hclear => ?stale, fun hready hlength => ?kept, fun hlength hmark hroom => ?continued,
    fun hlength hends => ?complete⟩
  case stale =>
    subst hnil
    rw [State.takeFetchedWord_stale _ hclear] at hread
    refine exec_seeks hread ?_
    show (if s.directive.chain = [] then _ else _) = _ ∨ (if s.directive.chain = [] then _ else _) = _
    split
    · exact .inl rfl
    · exact .inr rfl
  case kept =>
    rw [hread, State.takeFetchedWord_kept _ hready hlength]
    rfl
  case continued =>
    have hslot : (s.freePort.chainJoined (words ++ [data])).directive.fetchSlot
        = (s.directive.nextSlot + s.directive.chain.length + 1) % 64 := by
      simp [DirectiveUnit.fetchSlot, State.chainJoined, State.freePort, Config.ringSlots, Nat.add_assoc]
    rw [State.takeFetchedWord_last _ hlength, State.joinChain_continued s.freePort hmark hroom] at hread
    rw [← hslot]
    exact exec_seeks hread (.inr rfl)
  case complete =>
    have hchecked := exec_chainChecked hport hstep hlength hends
    refine ⟨fun hlong => ?overlong, fun hfits => ⟨fun hkind => ?unnamed, fun k hkind => ?named⟩⟩
    case overlong => exact exec_chainRefused hchecked (State.chainRefusal_overlong _ hlong) rfl
    case unnamed => exact exec_chainRefused hchecked (State.chainRefusal_unnamed _ hfits hkind) rfl
    case named =>
      have hnamed := State.chainRefusal_named (s.freePort.chainJoined (words ++ [data])) hfits hkind
      rw [← slotsNeeded_eq]
      refine ⟨fun hshort => ?_, fun henough hlaid hother => ?_, fun henough htaken => ?_⟩
      · exact exec_chainRefused hchecked (hnamed.trans (if_pos hshort)) rfl
      · have hrefused := (hnamed.trans (if_neg (Nat.not_lt.mpr henough))).trans (if_pos ⟨hlaid, hother⟩)
        exact exec_chainRefused hchecked hrefused rfl
      · have hpassed := (hnamed.trans (if_neg (Nat.not_lt.mpr henough))).trans (if_neg ?_)
        · rw [hchecked, State.checkChain_passed _ hpassed]
          rfl
        · rintro ⟨hlaid, hother⟩
          exact htaken.elim (· hlaid) hother

end Sys2Proof.Machine
end

section
/-! Settles O34: a directive that passes its checks is answered DONE, and the words of any answer (R156, R157, R172). -/

namespace Sys2Proof.Machine

variable {s u v t : State}

/-! ### No effect of a directive reaches the Directive Unit (R156) -/

/-- From `u` to `t` the Directive Unit and the straps, which place its ring, stay as they were. -/
structure UnitKept (u t : State) : Prop where
  directive : t.directive = u.directive
  straps : t.straps = u.straps

theorem UnitKept.refl (u : State) : UnitKept u u := ⟨rfl, rfl⟩

theorem UnitKept.after (h' : UnitKept v t) (h : UnitKept u v) : UnitKept u t :=
  ⟨h'.directive.trans h.directive, h'.straps.trans h.straps⟩

theorem UnitKept.ite {p : Prop} [Decidable p] (h : UnitKept u v) (h' : UnitKept u t) :
    UnitKept u (if p then v else t) := by
  split
  · exact h
  · exact h'

theorem StoreReportOnly.unitKept (h : StoreReportOnly u t) : UnitKept u t := by
  obtain ⟨st, rp, rfl⟩ := h
  exact ⟨rfl, rfl⟩

theorem WorkOnly.unitKept (h : WorkOnly u t) : UnitKept u t := by
  obtain ⟨st, rp, ws, rfl⟩ := h
  exact ⟨rfl, rfl⟩

variable (s)

theorem State.setWindowState_unitKept (w : WindowState) : UnitKept s (s.setWindowState w) := by
  rw [State.setWindowState_frame]
  exact ⟨rfl, rfl⟩

theorem State.startNextJob_unitKept : UnitKept s s.startNextJob := by
  obtain ⟨-, hstraps, -⟩ := (s.startNextJob_moves (c := .restore)).kept.clock
  exact ⟨s.startNextJob_sweepsOn.directive, hstraps⟩

/-- R55, R119: the drift sweep and the job that may follow the end of a window. -/
theorem State.afterWindow_unitKept : UnitKept s s.markDriftDue.startNextJob := by
  refine UnitKept.after s.markDriftDue.startNextJob_unitKept ?_
  rw [State.markDriftDue_frame]
  exact ⟨rfl, rfl⟩

theorem State.acceptLayout_unitKept : UnitKept s s.acceptLayout := by
  have hovertaken : UnitKept s s.overtakeRecord := by
    unfold State.overtakeRecord
    split
    · rw [State.owesAgain_frame]
      exact ⟨rfl, rfl⟩
    all_goals exact UnitKept.refl s
  unfold State.acceptLayout
  dsimp only
  generalize s.overtakeRecord = v at hovertaken
  rw [State.setWindowState_frame]
  exact ⟨hovertaken.directive, hovertaken.straps⟩

theorem State.acceptPolicy_unitKept : UnitKept s s.acceptPolicy := by
  unfold State.acceptPolicy
  dsimp only
  rw [(s.setMode_spec _).1]
  exact ⟨rfl, rfl⟩

/-- R22, R23, R16: a LOAD out of QUIET, but for its answer. -/
def State.loadedOutOfQuiet (s : State) : State :=
  (if (s.circuit s.loadInHand.circuit).state = .empty then s.loadEmptyInOpen s.loadInHand
    else s.loadHeldInOpen s.loadInHand).oweCircuit s.loadInHand.circuit

theorem State.loadedOutOfQuiet_unitKept : UnitKept s s.loadedOutOfQuiet := by
  have hempty : UnitKept s (s.loadEmptyInOpen s.loadInHand) := by
    rw [State.loadEmptyInOpen_frame]
    exact ⟨rfl, rfl⟩
  have hheld : UnitKept s (s.loadHeldInOpen s.loadInHand) := by
    rw [State.loadHeldInOpen_frame]
    exact ⟨rfl, rfl⟩
  have hloaded := UnitKept.ite (p := (s.circuit s.loadInHand.circuit).state = .empty) hempty hheld
  exact ⟨hloaded.directive, hloaded.straps⟩

theorem State.acceptDrop_unitKept : UnitKept s s.acceptDrop := by
  refine (UnitKept.refl s).ite ?_
  rw [State.release_frame]
  exact ⟨rfl, rfl⟩

theorem State.acceptOpen_unitKept : UnitKept s s.acceptOpen := by
  obtain ⟨st, rp, ws, hnamed⟩ := s.openNamed_frame
  rw [State.acceptOpen_eq]
  refine UnitKept.after (State.setWindowState_unitKept _ _) ?_
  rw [hnamed]
  exact ⟨rfl, rfl⟩

theorem State.closeWindow_unitKept : UnitKept s s.closeWindow := by
  have hpended : UnitKept s s.heldPended := State.heldPended_storeReport.unitKept
  unfold State.heldPended State.heldCircuits at hpended
  unfold State.closeWindow
  generalize s.forEach _ _ = v at hpended ⊢
  exact UnitKept.after (State.setWindowState_unitKept _ _) ⟨hpended.directive, hpended.straps⟩

theorem State.acceptAbandon_unitKept : UnitKept s s.acceptAbandon := by
  rw [State.acceptAbandon_eq]
  refine UnitKept.after s.windowAbandoned.afterWindow_unitKept ?_
  rw [State.windowAbandoned_frame]
  exact ⟨rfl, rfl⟩

theorem State.acceptAccept_unitKept : UnitKept s s.acceptAccept := by
  rw [State.acceptAccept_eq]
  refine UnitKept.after s.windowAccepted.afterWindow_unitKept ?_
  rw [State.windowAccepted_frame]
  exact ⟨rfl, rfl⟩

theorem State.enterVerifying_unitKept (chosen : Circuit → Bool) : UnitKept s (s.enterVerifying chosen) := by
  obtain ⟨st, rp, ev, hverifying⟩ := s.verifying_frame chosen
  have hsettled (v : State) : UnitKept v v.settleEntry := by
    refine UnitKept.ite ?_ (UnitKept.ite ⟨rfl, rfl⟩ (UnitKept.refl v))
    rw [State.conclude_frame]
    exact ⟨rfl, rfl⟩
  rw [State.enterVerifying_eq]
  refine (hsettled _).after ?_
  rw [hverifying]
  exact ⟨rfl, rfl⟩

theorem State.acceptRestore_unitKept : UnitKept s s.acceptRestore :=
  UnitKept.after (State.startNextJob_unitKept _) ⟨rfl, rfl⟩

/-- R156: what a directive that passes its checks does, a LOAD out of QUIET, before it is answered. -/
def effectOf : DirectiveKind → State → State
  | .layout => State.acceptLayout
  | .setPolicy => State.acceptPolicy
  | .load => State.loadedOutOfQuiet
  | .drop => State.acceptDrop
  | .openWindow => State.acceptOpen
  | .mark => State.acceptMark
  | .close => State.closeWindow
  | .abandon => State.acceptAbandon
  | .accept => State.acceptAccept
  | .recheck => fun s => s.enterVerifying Circuit.rechecked
  | .restore => State.acceptRestore

theorem effectOf_unitKept (k : DirectiveKind) : UnitKept s (effectOf k s) := by
  cases k with
  | layout => exact s.acceptLayout_unitKept
  | setPolicy => exact s.acceptPolicy_unitKept
  | load => exact s.loadedOutOfQuiet_unitKept
  | drop => exact s.acceptDrop_unitKept
  | openWindow => exact s.acceptOpen_unitKept
  | mark => exact s.acceptMark_workOnly.unitKept
  | close => exact s.closeWindow_unitKept
  | abandon => exact s.acceptAbandon_unitKept
  | accept => exact s.acceptAccept_unitKept
  | recheck => exact s.enterVerifying_unitKept Circuit.rechecked
  | restore => exact s.acceptRestore_unitKept

variable {s}

/-- R156, R168: the event of a directive in hand, of any kind, that no check refuses. -/
theorem exec_accepted {k : DirectiveKind} (h : s.inHand k) (hr : refusalOf k s = none)
    (hload : k = .load → s.window.state ≠ .quiet) :
    exec (commandOf k) s = .next ((effectOf k s).answerDirective ⟨.done, 0⟩).endEvent := by
  cases k with
  | load =>
    refine (exec_load s h hr).trans ?_
    rw [State.executeLoad_open s s.loadInHand (hload rfl)]
    rfl
  | _ => exact exec_directive_done s rfl h hr

/-! ### The words of an answer (R157, R172) -/

theorem DirectiveUnit.completionWords_length (d : DirectiveUnit) (a : DirectiveAnswer) :
    (d.completionWords a).length = max 1 d.chain.length := by
  simp only [DirectiveUnit.completionWords, List.length_append, List.length_map, List.length_range,
    List.length_singleton]
  omega

/-- R157: the first slot's word is written last. -/
theorem DirectiveUnit.completionWords_getLast? (d : DirectiveUnit) (a : DirectiveAnswer) :
    (d.completionWords a).getLast? = some (d.nextSlot, answerWord (chainWord d.chain 0 0) a) :=
  List.getLast?_concat

/-- R157, R172: the word 0 of an answer, its fields from the highest down: the detail, the outcome code, the ready mark
clear, and the kind, continuation mark and tag as fetched. -/
def answerLayout (w : Word) (o : DirectiveOutcome) (detail : Nat) : Word :=
  BitVec.ofNat 14 detail ++ BitVec.ofNat 4 o.code ++ 0#1 ++ w.extractLsb' 0 13

/-- A word put before another stands above its bits. -/
theorem toNat_append_eq_add {n m : Nat} (x : BitVec n) (y : BitVec m) :
    (x ++ y).toNat = x.toNat * 2 ^ m + y.toNat := by
  rw [BitVec.toNat_append, ← Nat.shiftLeft_add_eq_or_of_lt y.isLt, Nat.shiftLeft_eq]

theorem answerLayout_toNat (w : Word) (o : DirectiveOutcome) (detail : Nat) :
    (answerLayout w o detail).toNat
      = ((detail % 2 ^ 14 * 2 ^ 4 + o.code % 2 ^ 4) * 2 ^ 1 + 0) * 2 ^ 13 + w.toNat % 2 ^ 13 := by
  show (BitVec.ofNat 14 detail ++ BitVec.ofNat 4 o.code ++ 0#1 ++ w.extractLsb' 0 13
    : BitVec (14 + 4 + 1 + 13)).toNat = _
  simp only [toNat_append_eq_add, BitVec.toNat_ofNat, BitVec.extractLsb'_toNat, Nat.shiftRight_zero, Nat.zero_mod]

/-- The fields of the word that the model packs. The fold is unrolled by rewriting: as a computation it makes the kernel
unfold the powers of 2. -/
theorem answerWord_toNat (w : Word) (a : DirectiveAnswer) :
    (answerWord w a).toNat = (0 + bits w 0 8 % 2 ^ 8 * 2 ^ 0 + bits w 8 4 % 2 ^ 4 * 2 ^ 8 + bits w 12 1 % 2 ^ 1 * 2 ^ 12
      + a.outcome.code % 2 ^ 4 * 2 ^ 14 + a.detail % 2 ^ 14 * 2 ^ 18) % 2 ^ 32 := by
  unfold answerWord packWord
  rw [BitVec.toNat_ofNat, List.foldl_cons, List.foldl_cons, List.foldl_cons, List.foldl_cons, List.foldl_cons,
    List.foldl_nil]

theorem answerWord_eq (w : Word) (a : DirectiveAnswer) : answerWord w a = answerLayout w a.outcome a.detail := by
  refine BitVec.eq_of_toNat_eq ?_
  rw [answerLayout_toNat, answerWord_toNat]
  unfold bits
  omega

/-- Section 11.1: the outcome codes, numbered in the order of the outcomes. -/
theorem outcomeCode_eq (o : DirectiveOutcome) :
    o.code = [DirectiveOutcome.done, .refusedState, .refusedRange, .noLayout, .busy, .duplicate, .conflict, .malformed,
      .fault, .fetchFault, .continued].idxOf o + 1 := by
  cases o <;> rfl

/-- Settles O34: the effect leaves the Directive Unit alone, so the answer is that of the chain in hand; then the words
by their bits. -/
theorem acceptedDirectiveAnsweredDone : Obligations.AcceptedDirectiveAnsweredDone := by
  unfold Obligations.AcceptedDirectiveAnsweredDone
  refine ⟨fun k s hand hrefusal hload => ?done, fun d a => ?words⟩
  case done =>
    have hkept := effectOf_unitKept s k
    have hexec := exec_accepted hand hrefusal hload
    generalize effectOf k s = u at hkept hexec
    obtain ⟨slot, w, rest, hwords⟩ := s.directive.completionWords_cons ⟨.done, 0⟩
    have hanswer := u.answerDirective_cons (a := ⟨.done, 0⟩) (by rw [hkept.directive]; exact hwords)
    refine ⟨_, slot, w, rest, hexec, hwords, ?_, ?_, s.directive.completionWords_length _,
      s.directive.completionWords_getLast? _⟩
    · rw [u.answerDirective_step, hkept.directive]
    · have hring : u.ringBase = s.ringBase := by
        unfold State.ringBase
        rw [hkept.straps]
      rw [hanswer, hring]
  case words =>
    dsimp only
    simp only [← outcomeCode_eq]
    refine ⟨fun w => answerWord_eq w a, ?_⟩
    unfold DirectiveUnit.completionWords
    simp only [answerWord_eq]
    rfl

end Sys2Proof.Machine
end

section
/-!
Circuit numbers, state counts and ASSURED (R16, R118, R171): the state in which all three are in order, and the operations
on circuits, maps and marks that keep it so.
-/

namespace Sys2Proof.Machine

/-- R16, R118, R171: every circuit number held for work is one of the part's, each count is the number of circuits in its
state, and ASSURED follows its condition. -/
structure State.Tallied (s : State) : Prop where
  numbers : s.numbersInRange
  counts : s.countsAgree
  assured : s.assuredAgrees

/-- What these speak of, the tables as what reading them gives. -/
structure Roster where
  state : Nat → CircuitState
  owner : Nat → Option Nat
  boundTo : Nat → Option Nat
  count : CircuitState → Nat
  job : Job
  capture : Option Nat
  restores : List Nat
  window : WindowState
  assured : Bool

def State.roster (s : State) : Roster :=
  { state := fun c => (s.circuit c).state, owner := fun i => (s.mapEntry i).owner, boundTo := s.boundTo
    count := s.count, job := s.sweep.job, capture := s.sweep.captureRequest, restores := s.sweep.restoreList
    window := s.window.state, assured := s.report.assured }

namespace State.Tallied

variable {s t : State}

/-! ### Reading the numbers -/

theorem owner_lt (h : s.Tallied) {i c : Nat} (ho : (s.mapEntry i).owner = some c) : c < 512 := by
  obtain ⟨howner, -⟩ := h.numbers
  exact howner i c ho

theorem bound_lt (h : s.Tallied) {ch c : Nat} (hb : s.boundTo ch = some c) : c < 512 := by
  obtain ⟨-, hbound, -⟩ := h.numbers
  exact hbound ch c hb

theorem job_inRange (h : s.Tallied) : s.sweep.job.inRange := by
  obtain ⟨-, -, hjob, -⟩ := h.numbers
  exact hjob

theorem capture_lt (h : s.Tallied) {c : Nat} (hc : s.sweep.captureRequest = some c) : c < 512 := by
  obtain ⟨-, -, -, hcapture, -⟩ := h.numbers
  exact hcapture c hc

theorem restore_lt (h : s.Tallied) {c : Nat} (hc : c ∈ s.sweep.restoreList) : c < 512 := by
  obtain ⟨-, -, -, -, hrestore⟩ := h.numbers
  exact hrestore c hc

/-! ### Leaving the roster alone -/

theorem of_eq (h : s.Tallied) (e : t.roster = s.roster) : t.Tallied := by
  have hstate : ∀ c, (t.circuit c).state = (s.circuit c).state := congrFun (congrArg Roster.state e)
  have howner : ∀ i, (t.mapEntry i).owner = (s.mapEntry i).owner := congrFun (congrArg Roster.owner e)
  have hbound : t.boundTo = s.boundTo := congrArg Roster.boundTo e
  have hcount : t.count = s.count := congrArg Roster.count e
  have hjob : t.sweep.job = s.sweep.job := congrArg Roster.job e
  have hcapture : t.sweep.captureRequest = s.sweep.captureRequest := congrArg Roster.capture e
  have hrestores : t.sweep.restoreList = s.sweep.restoreList := congrArg Roster.restores e
  have hwindow : t.window.state = s.window.state := congrArg Roster.window e
  have hassured : t.report.assured = s.report.assured := congrArg Roster.assured e
  refine ⟨?_, State.countsAgree_congr h.counts hstate (congrFun hcount), ?_⟩
  · simpa only [State.numbersInRange, howner, hbound, hjob, hcapture, hrestores] using h.numbers
  · simpa only [State.assuredAgrees, State.assuredCondition, hassured, hwindow, hcount] using h.assured

theorem ite {p : Prop} [Decidable p] (hs : p → s.Tallied) (ht : ¬ p → t.Tallied) : (if p then s else t).Tallied := by
  split
  · exact hs ‹_›
  · exact ht ‹_›

theorem forEach (h : s.Tallied) (f : State → Nat → State) {l : List Nat}
    (hf : ∀ v : State, ∀ k ∈ l, v.Tallied → (f v k).Tallied) : (s.forEach l f).Tallied :=
  State.forEach_induct s State.Tallied f l hf h

theorem forSome (h : s.Tallied) (f : State → Nat → State) {o : Option Nat}
    (hf : ∀ k, o = some k → (f s k).Tallied) : (s.forSome o f).Tallied := by
  cases o with
  | none => exact h
  | some k => exact hf k rfl

/-! ### Marks and the window's fields -/

theorem raise (h : s.Tallied) (k : Cause) : (s.raise k).Tallied := h.of_eq (by rw [State.raise_frame]; rfl)

theorem oweCircuit (h : s.Tallied) (k : Nat) : (s.oweCircuit k).Tallied := h.of_eq rfl

theorem wantSummary (h : s.Tallied) : s.wantSummary.Tallied := h.of_eq rfl

theorem wantSummaryIf (h : s.Tallied) (b : Bool) : (s.wantSummaryIf b).Tallied :=
  ite (fun _ => h.wantSummary) fun _ => h

theorem writeFault (h : s.Tallied) (addr : Nat) (kind : FaultKind) (m : Master) :
    (s.writeFault addr kind m).Tallied := h.of_eq rfl

theorem setWindowFlags (h : s.Tallied) (a b : Bool) : (s.setWindowFlags a b).Tallied :=
  ite (fun _ => h) fun _ => h.of_eq rfl

theorem setWindowNumber (h : s.Tallied) (n : BitVec 16) : (s.setWindowNumber n).Tallied :=
  ite (fun _ => h) fun _ => h.of_eq rfl

theorem setWorkMember (h : s.Tallied) (k : Nat) (b : Bool) : (s.setWorkMember k b).Tallied :=
  h.of_eq (by rw [State.setWorkMember_frame]; rfl)

theorem clearWorkSet (h : s.Tallied) : s.clearWorkSet.Tallied := ite (fun _ => h) fun _ => h.of_eq rfl

/-- R171: after a change of the window state ASSURED follows. -/
theorem setWindowState (h : s.Tallied) (w : WindowState) : (s.setWindowState w).Tallied :=
  ite (fun _ => h) fun _ => ⟨h.numbers, h.counts, rfl⟩

/-! ### Circuits -/

/-- A record in the same state. -/
theorem putCircuit (h : s.Tallied) (k : Nat) {r : Circuit} (hr : r.state = (s.circuit k).state) :
    (s.putCircuit k r).Tallied :=
  ⟨h.numbers, s.putCircuit_countsAgree k hr h.counts, h.assured⟩

/-- R16, R171: with a state the counts move, and then ASSURED follows. -/
theorem setCircuitState (h : s.Tallied) (k : Nat) (st : CircuitState) (hk : k < 512) :
    (s.setCircuitState k st).Tallied := by
  refine ⟨?_, s.setCircuitState_countsAgree k st hk h.counts, ?_⟩
  · have howner := s.setCircuitState_owner k st
    have hbound := s.setCircuitState_boundTo k st
    obtain ⟨m, ct, owed, wanted, b, hframe⟩ := s.setCircuitState_frame k st
    have hsweep : (s.setCircuitState k st).sweep = s.sweep := by rw [hframe]
    simpa only [State.numbersInRange, howner, hbound, hsweep] using h.numbers
  · by_cases hsame : (s.circuit k).state = st
    · rw [s.setCircuitState_same k st hsame]
      exact h.assured
    · have hset : s.setCircuitState k st = State.updateAssured _ := if_neg hsame
      rw [hset]
      rfl

/-! ### Maps and lists (R10, R11, R17) -/

theorem putEntry (h : s.Tallied) (i : Nat) {e : MapEntry} (he : ∀ c, e.owner = some c → c < 512) :
    (s.putEntry i e).Tallied := by
  obtain ⟨howner, hrest⟩ := h.numbers
  refine ⟨⟨fun j c hc => ?_, hrest⟩, h.counts, h.assured⟩
  rw [State.putEntry_mapEntry] at hc
  split at hc
  · exact he c hc
  · exact howner j c hc

theorem putBinding (h : s.Tallied) (ch : Nat) {b : Option Nat} (hb : ∀ c, b = some c → c < 512) :
    (s.putBinding ch b).Tallied := by
  obtain ⟨howner, hbound, hrest⟩ := h.numbers
  refine ⟨⟨howner, fun j c hc => ?_, hrest⟩, h.counts, h.assured⟩
  rw [State.putBinding_boundTo] at hc
  split at hc
  · exact hb c hc
  · exact hbound j c hc

/-- R118: the Sweep Engine with the numbers of its job, of the capture asked for and of the restores in range. -/
theorem withSweep (h : s.Tallied) {sw : Sweep} (hj : sw.job.inRange) (hc : ∀ c, sw.captureRequest = some c → c < 512)
    (hl : ∀ c ∈ sw.restoreList, c < 512) : ({ s with sweep := sw } : State).Tallied := by
  obtain ⟨howner, hbound, -⟩ := h.numbers
  exact ⟨⟨howner, hbound, hj, hc, hl⟩, h.counts, h.assured⟩

theorem unclaim (h : s.Tallied) (i : Nat) : (s.unclaim i).Tallied := h.putEntry i nofun

theorem claim (h : s.Tallied) (i : Nat) {k : Nat} (hk : k < 512) : (State.claim k s i).Tallied :=
  h.putEntry i fun c hc => by
    cases hc
    exact hk

theorem retarget (h : s.Tallied) (k : Nat) (new : List Nat) (hk : k < 512) : (s.retarget k new).Tallied :=
  ((h.forEach State.unclaim fun _ i _ hv => hv.unclaim i).forEach (State.claim k)
    fun _ i _ hv => hv.claim i hk).putCircuit k (by rfl)

theorem refence (h : s.Tallied) (i : Nat) : (s.refence i).Tallied := h.putEntry i fun _ hc => h.owner_lt hc

theorem setMode (h : s.Tallied) (m : Mode) : (s.setMode m).Tallied := by
  have hmode : ({ s with store := { s.store with mode := m } } : State).Tallied := h.of_eq rfl
  exact ite (fun _ => h) fun _ => (hmode.forEach State.refence fun _ i _ hv => hv.refence i).wantSummary

theorem unbind (h : s.Tallied) (ch : Nat) : (s.unbind ch).Tallied :=
  (h.putBinding ch (b := none) fun _ hc => by cases hc).of_eq rfl

theorem bind (h : s.Tallied) (k ch : Nat) (hk : k < 512) : (s.bind k ch).Tallied := by
  have hold : (s.forSome (s.circuit k).channel State.unbind).Tallied := h.forSome State.unbind fun _ _ => h.unbind _
  have hbound := hold.putBinding ch (b := some k) fun c hc => by
    cases hc
    exact hk
  exact ite (fun _ => h) fun _ =>
    (hbound.putCircuit k (r := { State.circuit _ k with channel := some ch }) (by rfl)).of_eq rfl

theorem unlistRestore (h : s.Tallied) (k : Nat) : (s.unlistRestore k).Tallied := by
  rw [State.unlistRestore_frame]
  refine (h.withSweep (sw := { s.sweep with restoreList := s.sweep.restoreList.filter (· != k) }) h.job_inRange
    (fun _ => h.capture_lt) fun c hc => h.restore_lt (List.mem_of_mem_filter hc)).of_eq rfl

/-- R17: a release frees the entries and the channel, and the lists, the record and the state follow. -/
theorem release (h : s.Tallied) (k : Nat) (hk : k < 512) : (s.release k).Tallied := by
  have hentries := h.forEach State.unclaim (l := (s.circuit k).entries) fun _ i _ hv => hv.unclaim i
  have hfreed := hentries.forSome State.unbind (o := (s.circuit k).channel) fun ch _ => hentries.unbind ch
  have hsame : ((s.forEach (s.circuit k).entries State.unclaim).forSome (s.circuit k).channel State.unbind).circuit k
      = s.circuit k :=
    (State.forSome_keeps _ (fun v => v.circuit k) State.unbind (fun _ _ => rfl) _).trans
      (State.forEach_keeps s (fun v => v.circuit k) State.unclaim (fun _ _ => rfl) _)
  unfold State.release
  dsimp only
  generalize (s.forEach (s.circuit k).entries State.unclaim).forSome (s.circuit k).channel State.unbind = v at *
  have hstore : ((v.unlistRestore k).setWorkMember k false).store = v.store := by
    rw [State.setWorkMember_frame, State.unlistRestore_frame]
  refine (((hfreed.unlistRestore k).setWorkMember k false).putCircuit k ?_).setCircuitState k .empty hk
  rw [State.circuit_of_store hstore, hsame]

end State.Tallied

/-! ### The Sweep Engine (R119 to R131) -/

/-- The circuits that a test picks are circuits of the part. -/
theorem State.lt_of_mem_circuitsWhere {s : State} {p : Circuit → Bool} {c : Nat} (h : c ∈ s.circuitsWhere p) :
    c < 512 := by simpa [Config.circuits] using (List.mem_filter.mp h).1

/-- R126: so is the next SETTLED circuit. -/
theorem State.nextSettled_lt {s : State} {low n : Nat} (h : s.nextSettled low = some n) : n < 512 := by
  unfold State.nextSettled at h
  exact State.lt_of_mem_circuitsWhere (List.mem_of_find?_eq_some h)

namespace State.Tallied

variable {s : State}

theorem releaseHeldSweep (h : s.Tallied) : s.releaseHeldSweep.Tallied :=
  h.of_eq (by rw [State.releaseHeldSweep_frame]; rfl)

/-- R118, R119: a job of a circuit of the part is taken up. -/
theorem runJob (h : s.Tallied) {j : Job} (hj : j.inRange) : (s.runJob j).Tallied := by
  rw [State.runJob_frame]
  exact (h.withSweep (sw := { s.sweep with job := j, held := (s.runJob j).sweep.held }) hj (fun _ => h.capture_lt)
    fun _ => h.restore_lt).of_eq rfl

theorem endJob (h : s.Tallied) : s.endJob.Tallied := h.withSweep trivial (fun _ => h.capture_lt) fun _ => h.restore_lt

theorem setDemand (h : s.Tallied) (d : Demand) : (s.setDemand d).Tallied := h.of_eq rfl

theorem clearOverrun (h : s.Tallied) : s.clearOverrun.Tallied := h.of_eq (by rw [State.clearOverrun_frame]; rfl)

theorem markDriftDue (h : s.Tallied) : s.markDriftDue.Tallied := h.of_eq (by rw [State.markDriftDue_frame]; rfl)

theorem driftSweepEnded (h : s.Tallied) : s.driftSweepEnded.Tallied := by
  unfold State.driftSweepEnded
  split
  · exact (h.setDemand .none).clearOverrun
  · exact (h.setDemand .owed).markDriftDue
  all_goals exact h

theorem startRestore (h : s.Tallied) : s.startRestore.Tallied := by
  cases hlist : s.sweep.restoreList with
  | nil =>
    rw [State.startRestore_nil hlist]
    exact h
  | cons k rest =>
    have hk : k < 512 := h.restore_lt (by simp [hlist])
    have hlisted := h.withSweep (sw := { s.sweep with restoreList := rest }) h.job_inRange (fun _ => h.capture_lt)
      fun c hc => h.restore_lt (by rw [hlist]; exact List.mem_cons_of_mem k hc)
    rw [State.startRestore_cons k rest hlist]
    exact (hlisted.wantSummary.setCircuitState k .restoring hk).runJob hk

theorem startDriftSweep (h : s.Tallied) : s.startDriftSweep.Tallied := by
  have hbegun : s.driftBegun.Tallied := h.of_eq rfl
  rw [State.startDriftSweep_eq]
  cases hnext : s.nextSettled 0 with
  | some n => exact hbegun.runJob (State.nextSettled_lt hnext)
  | none => exact hbegun.driftSweepEnded.startRestore

theorem startNextJob (h : s.Tallied) : s.startNextJob.Tallied := by
  refine ite (fun _ => h) fun _ => ?_
  split
  · rename_i c hc
    have hasked := h.withSweep (sw := { s.sweep with captureRequest := none }) h.job_inRange nofun fun _ => h.restore_lt
    exact hasked.runJob (h.capture_lt hc)
  · exact ite (fun _ => h.startDriftSweep) fun _ => h.startRestore

theorem requestDriftSweep (h : s.Tallied) : s.requestDriftSweep.Tallied :=
  ite (fun _ => h.markDriftDue.startNextJob) fun _ => h

theorem driftOn (h : s.Tallied) (low : Nat) : (s.driftOn low).Tallied := by
  unfold State.driftOn
  split
  · rename_i n hnext
    exact h.runJob (State.nextSettled_lt hnext)
  · exact h.endJob.driftSweepEnded.startNextJob

theorem driftSettled (h : s.Tallied) {k : Nat} (hk : k < 512) : (s.driftSettled k).Tallied :=
  ite (fun _ => (h.setCircuitState k .drifted hk).raise .drift) fun _ => h

theorem takeDriftWord (h : s.Tallied) {k : Nat} (p : Nat) (data : Word) (hk : k < 512) :
    (s.takeDriftWord k p data).Tallied :=
  ite (fun _ => h.driftOn _) fun _ => ite (fun _ => (h.driftSettled hk).driftOn _) fun _ =>
    ite (fun _ => h.runJob hk) fun _ => h.driftOn _

theorem finishRestore (h : s.Tallied) {k : Nat} (st : CircuitState) (o : RestoreOutcome) (cause : Option VerdictCause)
    (hk : k < 512) : (s.finishRestore k st o cause).Tallied :=
  ((((h.putCircuit k (by rfl)).setCircuitState k st hk).oweCircuit k).raise .restoreDone).endJob.startNextJob

/-! ### The Directive Unit (R152 to R159) -/

theorem seekSlot (h : s.Tallied) : s.seekSlot.Tallied := h.of_eq (by rw [State.seekSlot_frame]; rfl)

theorem startCompleting (h : s.Tallied) (left : List (Nat × Word)) (n : Nat) : (s.startCompleting left n).Tallied :=
  h.of_eq (by rw [State.startCompleting_frame]; rfl)

theorem answerDirective (h : s.Tallied) (a : DirectiveAnswer) : (s.answerDirective a).Tallied :=
  (ite (fun _ => h.raise .refused) fun _ => h).startCompleting _ _

theorem checkChain (h : s.Tallied) : s.checkChain.Tallied := by
  unfold State.checkChain
  split
  · exact h.answerDirective _
  · exact h.of_eq rfl

theorem joinChain (h : s.Tallied) (slot : List Word) : (s.joinChain slot).Tallied := by
  have hjoined : ({ s with directive := { s.directive with chain := s.directive.chain ++ [slot] } } : State).Tallied :=
    h.of_eq rfl
  exact ite (fun _ => (hjoined.of_eq (by rfl)).seekSlot) fun _ => hjoined.checkChain

theorem takeFetchedWord (h : s.Tallied) (words : List Word) (data : Word) : (s.takeFetchedWord words data).Tallied :=
  ite (fun _ => (h.of_eq (by rfl)).seekSlot) fun _ => ite (fun _ => h.of_eq rfl) fun _ => h.joinChain _

theorem endCompletionWrite (h : s.Tallied) (left : List (Nat × Word)) (n : Nat) :
    (s.endCompletionWrite left n).Tallied := by
  unfold State.endCompletionWrite
  split
  · exact (h.of_eq (by rfl)).seekSlot
  · exact h.startCompleting _ _

theorem failDirective (h : s.Tallied) : s.failDirective.Tallied := by
  unfold State.failDirective
  split
  · unfold State.faultFetch
    exact (h.of_eq (by rfl)).startCompleting _ _
  · exact h.endCompletionWrite _ _
  all_goals exact h

theorem completeFetchRead (h : s.Tallied) (data : Word) : (s.completeFetchRead data).Tallied := by
  unfold State.completeFetchRead
  split
  · exact (h.of_eq (by rfl)).takeFetchedWord _ _
  · exact h

theorem completeCompletionWrite (h : s.Tallied) : s.completeCompletionWrite.Tallied := by
  unfold State.completeCompletionWrite
  split
  · exact (h.of_eq (by rfl)).endCompletionWrite _ _
  · exact h

/-! ### Captures (R21, R121) -/

theorem finishCapture (h : s.Tallied) {k : Nat} (hk : k < 512) : (s.finishCapture k).Tallied :=
  ((((h.putCircuit k (by rfl)).setCircuitState k _ hk).oweCircuit k).endJob.answerDirective _).startNextJob

theorem failCapture (h : s.Tallied) {k : Nat} (p : Nat) (hk : k < 512) : (s.failCapture k p).Tallied :=
  ((h.release k hk).endJob.answerDirective _).startNextJob

theorem takeCaptureWord (h : s.Tallied) {k : Nat} (p : Nat) (data : Word) (hk : k < 512) :
    (s.takeCaptureWord k p data).Tallied :=
  ite (fun _ => State.Tallied.runJob (h.putCircuit k (by rfl)) hk) fun _ =>
    State.Tallied.finishCapture (h.putCircuit k (by rfl)) hk

end State.Tallied
end Sys2Proof.Machine
end

section
/-! Circuit numbers, state counts and ASSURED kept: the verdicts, the window, the journal and the Pass Path. -/

namespace Sys2Proof.Machine

namespace State.Tallied

variable {s : State}

/-! ### Verdicts (R133 to R148) -/

theorem changeVerdict (h : s.Tallied) {k : Nat} (st : CircuitState) (cause : Option VerdictCause) (hk : k < 512) :
    (s.changeVerdict k st cause).Tallied := ((h.putCircuit k (by rfl)).setCircuitState k st hk).oweCircuit k

theorem evaluateHandedOver (h : s.Tallied) {k : Nat} (ch : Nat) (hk : k < 512) :
    (s.evaluateHandedOver k ch).Tallied :=
  ite (fun _ => ite (fun _ => h) fun _ => (h.changeVerdict _ _ hk).of_eq rfl) fun _ => h

theorem stopSilence (h : s.Tallied) : s.stopSilence.Tallied := by
  obtain ⟨ev, hev⟩ := s.stopSilence_some
  exact h.of_eq (by rw [hev]; rfl)

theorem conclude (h : s.Tallied) : s.conclude.Tallied :=
  (State.Tallied.stopSilence (s := s.stopVerdictTimers) (h.of_eq (by rfl))).setWindowState .concluded |>.raise .concluded

theorem pendAfresh (h : s.Tallied) {k : Nat} (hk : k < 512) : (s.pendAfresh k).Tallied := by
  have hput : (s.putCircuit k { s.circuit k with cause := none }).Tallied := h.putCircuit k (by rfl)
  have hforgot : (s.forgetVerdict k).Tallied := ite (fun _ => hput.oweCircuit k) fun _ => hput
  exact (hforgot.setCircuitState k .pending hk).forSome State.resetEvidence fun _ _ =>
    (hforgot.setCircuitState k .pending hk).of_eq rfl

theorem startVerification (h : s.Tallied) (k : Nat) : (s.startVerification k).Tallied := by
  have hput : (s.putCircuit k { s.circuit k with verdictChanges := 0 }).Tallied := h.putCircuit k (by rfl)
  exact hput.forSome _ fun _ _ => hput.of_eq rfl

theorem settleEntry (h : s.Tallied) : s.settleEntry.Tallied :=
  ite (fun _ => h.conclude) fun _ => ite (fun _ => h.of_eq rfl) fun _ => h

theorem enterVerifying (h : s.Tallied) (chosen : Circuit → Bool) : (s.enterVerifying chosen).Tallied := by
  have hpended := h.forEach State.pendAfresh (l := s.circuitsWhere fun r => r.state.inWindow && chosen r)
    fun _ k hk hv => hv.pendAfresh (State.lt_of_mem_circuitsWhere hk)
  have hstarted : (s.verificationStarted chosen).Tallied :=
    hpended.forEach State.startVerification fun _ k _ hv => hv.startVerification k
  rw [State.enterVerifying_eq]
  unfold State.verifying
  generalize s.verificationStarted chosen = v at *
  exact (State.Tallied.setWindowState (hstarted.of_eq (by rfl)) .verifying).settleEntry

/-! ### The close sweep and the window (chapter 6, R122 to R125) -/

theorem sweepOn (h : s.Tallied) {set : List Nat} (low : Nat) (hset : ∀ k ∈ set, k < 512) :
    (s.sweepOn set low).Tallied := by
  unfold State.sweepOn
  split
  · rename_i c hc
    exact h.runJob ⟨hset c (List.mem_of_find?_eq_some hc), hset⟩
  · exact h.endJob.enterVerifying _

theorem recordSwept (h : s.Tallied) {k : Nat} (words : List Word) (hk : k < 512) : (s.recordSwept k words).Tallied :=
  ite (fun _ => (h.putCircuit k (by rfl)).oweCircuit k) fun _ =>
    ite (fun _ => (h.putCircuit k (by rfl)).setCircuitState k .pending hk) fun _ => h

theorem recordUnreadable (h : s.Tallied) {k : Nat} (hk : k < 512) : (s.recordUnreadable k).Tallied :=
  ite (fun _ => ((h.putCircuit k (by rfl)).oweCircuit k).setCircuitState k .broken hk) fun _ => h.driftSettled hk

theorem enterSweeping (h : s.Tallied) : s.enterSweeping.Tallied := by
  have hset : ∀ k ∈ s.closeSet, k < 512 := fun k hk => by
    unfold State.closeSet at hk
    split at hk <;> exact State.lt_of_mem_circuitsWhere hk
  have hsweeping : s.sweeping.Tallied := State.Tallied.setWindowState (h.of_eq (by rfl)) .sweeping
  exact hsweeping.sweepOn 0 hset

theorem leaveSettlingIfDone (h : s.Tallied) : s.leaveSettlingIfDone.Tallied :=
  ite (fun _ => h.enterSweeping) fun _ => h

theorem closeWindow (h : s.Tallied) : s.closeWindow.Tallied := by
  have hpended := h.forEach (fun s c => s.setCircuitState c .pending) (l := s.circuitsWhere fun r => r.state = .held)
    fun _ k hk hv => hv.setCircuitState k .pending (State.lt_of_mem_circuitsWhere hk)
  unfold State.closeWindow
  dsimp only
  generalize s.forEach _ _ = v at *
  exact State.Tallied.setWindowState (hpended.of_eq (by rfl)) .settling

theorem endWindow (h : s.Tallied) : s.endWindow.Tallied := h.clearWorkSet.setWindowState .quiet

/-! ### The Change Journal (R48 to R64) -/

theorem storeRecord (h : s.Tallied) (r : ChangeRecord) : (s.storeRecord r).Tallied :=
  ite (fun _ => State.Tallied.raise (h.of_eq (by rfl)) .journalHalf) fun _ => h.of_eq rfl

theorem loseCapture (h : s.Tallied) (phase : Phase) : (s.loseCapture phase).Tallied := by
  have hflag : (if s.journal.overrun.isSome then s
      else ((State.wantSummary { s with journal := { s.journal with overrun := some phase } }).raise
        .journalOverrun)).Tallied := ite (fun _ => h) fun _ => State.Tallied.raise (h.of_eq (by rfl)) .journalOverrun
  exact (State.Tallied.setDemand (ite (fun _ => hflag) fun _ => hflag.setWindowFlags _ _) _).requestDriftSweep

theorem capture (h : s.Tallied) (index : Nat) (data : Word) (lanes : Lanes) (m : Master) (fenced : Bool) :
    (s.capture index data lanes m fenced).Tallied := ite (fun _ => h.storeRecord _) fun _ => h.loseCapture _

theorem releaseRecord (h : s.Tallied) : s.releaseRecord.Tallied := (h.of_eq (by rfl)).requestDriftSweep

theorem bumpChanges (h : s.Tallied) (k : Nat) : (s.bumpChanges k).Tallied := h.putCircuit k (by rfl)

theorem joinUndeclared (h : s.Tallied) {k : Nat} (hk : k < 512) : (s.joinUndeclared k).Tallied :=
  (h.putCircuit k (by rfl)).setCircuitState k _ hk

theorem judgeDrift (h : s.Tallied) {k : Nat} (hk : k < 512) : (s.judgeDrift k).Tallied := by
  by_cases hl : (s.circuit k).state = .loading
  · rw [s.judgeDrift_loading k hl]
    exact h.putCircuit k (by rfl)
  by_cases hd : (s.circuit k).state = .settled ∨ (s.circuit k).state = .faulted
  · rw [s.judgeDrift_drifts k hd]
    exact (h.setCircuitState k .drifted hk).raise .drift
  by_cases hp : (s.circuit k).state.inWindow = true
      ∧ ((s.circuit k).prior = some .settled ∨ (s.circuit k).prior = some .faulted)
  · rw [s.judgeDrift_demotes k hp.1 hp.2]
    exact State.Tallied.raise (h.putCircuit k (by rfl)) .drift
  · rw [s.judgeDrift_stays k hl hd hp]
    exact h

/-- R59 to R62: the owner of the record is a circuit of the part. -/
theorem judgeOwner (h : s.Tallied) (k : Classification) {owner : Option Nat} (ho : ∀ c, owner = some c → c < 512) :
    (s.judgeOwner k owner).Tallied := by
  cases k with
  | fenced => exact (h.forSome _ fun c _ => (h.putCircuit c (by rfl)).oweCircuit c).raise .fenceHit
  | stray => exact h
  | declared => exact h.forSome State.bumpChanges fun c _ => h.bumpChanges c
  | undeclared =>
    exact h.forSome (fun s c => if (s.circuit c).state.inWindow then s.bumpChanges c else s.joinUndeclared c)
      fun c hc => ite (fun _ => h.bumpChanges c) fun _ => h.joinUndeclared (ho c hc)
  | drift => exact h.forSome State.judgeDrift fun c hc => h.judgeDrift (ho c hc)

theorem classifyNext (h : s.Tallied) : s.classifyNext.Tallied := by
  cases hwait : s.journal.waiting with
  | nil =>
    have hnone : s.classifyNext = s := by simp [State.classifyNext, hwait]
    rwa [hnone]
  | cons r rest =>
    have hjudged := h.judgeOwner (s.judgement r) (owner := (s.mapEntry r.index).owner) fun _ => h.owner_lt
    have hclassified : (s.classified r rest).Tallied := hjudged.of_eq rfl
    rw [State.classifyNext_eq hwait]
    exact ite (fun _ => hclassified.leaveSettlingIfDone) fun _ => hclassified

/-! ### The Pass Path (R29 to R44) -/

theorem postWrite (h : s.Tallied) (a : Access) (data : Word) (lanes : Lanes) : (s.postWrite a data lanes).Tallied :=
  h.of_eq rfl

theorem acceptConnection (h : s.Tallied) (a : Access) (i : Nat) (data : Word) (lanes : Lanes) :
    (s.acceptConnection a i data lanes).Tallied :=
  ite (fun _ => State.Tallied.capture (h.of_eq (by rfl)) _ _ _ _ _) fun _ => (h.postWrite a data lanes).capture _ _ _ _ _

theorem acceptClosing (h : s.Tallied) (a : Access) (ch : Nat) (data : Word) (lanes : Lanes) :
    (s.acceptClosing a ch data lanes).Tallied :=
  ite (fun _ => State.Tallied.postWrite (h.of_eq (by rfl)) a data lanes) fun _ => h.of_eq rfl

theorem takeConsumer (h : s.Tallied) (v : BitVec 16) : (s.takeConsumer v).Tallied :=
  ite (fun _ => State.Tallied.wantSummaryIf (h.of_eq (by rfl)) _) fun _ =>
    State.Tallied.wantSummaryIf (h.of_eq (by rfl)) _

theorem assembleLanding (h : s.Tallied) (ch w : Nat) (data : Word) (lanes : Lanes) :
    (s.assembleLanding ch w data lanes).Tallied := by
  unfold State.assembleLanding
  generalize Table.set zeroTag s.pass.assembly ch _ = assembly
  exact h.of_eq rfl

theorem acceptWrite (h : s.Tallied) (a : Access) (data : Word) (lanes : Lanes) :
    (s.acceptWrite a data lanes).Tallied := by
  have hpost := h.postWrite a data lanes
  unfold State.acceptWrite
  split
  · exact h.acceptConnection a _ data lanes
  · exact ite (fun _ => hpost) fun _ => ite (fun _ => (h.assembleLanding _ _ data lanes).postWrite a data lanes)
      fun _ => ite (fun _ => h.acceptClosing a _ data lanes) fun _ => hpost
  · exact ite (fun _ => (h.takeConsumer _).postWrite a data lanes) fun _ => hpost
  all_goals exact hpost

theorem takeAccess (h : s.Tallied) (a : Access) : (s.takeAccess a).Tallied := by
  unfold State.takeAccess
  split
  · exact h.of_eq rfl
  · exact h.acceptWrite a _ _

theorem present (h : s.Tallied) (addr : WordAddr) (op : AccessOp) (m : Master) : (s.present addr op m).Tallied :=
  ite (fun _ => h) fun _ => ite (fun _ => h.of_eq rfl) fun _ => ite (fun _ => h.of_eq rfl) fun _ =>
    State.Tallied.takeAccess (h.of_eq (by rfl)) _

theorem emptyBuffer (h : s.Tallied) : s.emptyBuffer.Tallied := by
  have hmade : (State.releaseHeldSweep { s with pass := { s.pass with buffer := none } }).Tallied :=
    (h.of_eq (by rfl)).releaseHeldSweep
  unfold State.emptyBuffer State.releaseDrain
  split
  · exact ite (fun _ => hmade.of_eq rfl) fun _ => hmade.takeAccess _
  all_goals exact hmade

theorem completeForwardedWrite (h : s.Tallied) : s.completeForwardedWrite.Tallied := by
  have hnoted (p : Posted) : (s.freePort.noteReady p).Tallied := by
    unfold State.noteReady
    split
    · exact ite (fun _ => h.of_eq rfl) fun _ => h.of_eq rfl
    · exact h.of_eq rfl
  unfold State.completeForwardedWrite
  split
  · exact (hnoted _).emptyBuffer.seekSlot
  · exact h

theorem completeForwardedRead (h : s.Tallied) (data : Word) : (s.completeForwardedRead data).Tallied := by
  unfold State.completeForwardedRead
  split
  · exact ite (fun _ => h.of_eq rfl) fun _ => h.of_eq rfl
  · exact h

theorem expireHold (h : s.Tallied) : s.expireHold.Tallied := by
  unfold State.expireHold
  split
  · split
    · exact h.of_eq rfl
    · exact h
  all_goals exact h

/-! ### Arrivals and silence (R67, R78) -/

theorem endHold (h : s.Tallied) : s.endHold.Tallied := by
  unfold State.endHold
  split
  · split
    · exact h.acceptClosing _ _ _ _
    · exact h
  all_goals exact h

theorem consumeArrival (h : s.Tallied) : s.consumeArrival.Tallied := by
  unfold State.consumeArrival
  split
  · exact h
  · rename_i a rest _
    have htaken : (State.wantSummary { s with trace := { s.trace with arrivals := rest } }).Tallied := h.of_eq rfl
    exact (htaken.forSome _ fun _ hc =>
      State.Tallied.evaluateHandedOver (htaken.of_eq (by rfl)) a.channel (htaken.bound_lt hc)).endHold

theorem expireSilence (h : s.Tallied) (ch : Nat) : (s.expireSilence ch).Tallied := by
  unfold State.expireSilence
  split
  · have hexpired : (s.setSilence ch .expired).Tallied := h.of_eq rfl
    exact hexpired.forSome _ fun _ hc => hexpired.evaluateHandedOver ch (h.bound_lt hc)
  all_goals exact h

end State.Tallied
end Sys2Proof.Machine
end

section
/-! Circuit numbers, state counts and ASSURED kept: the Memory Arbiter, the Report Unit and the timers. -/

namespace Sys2Proof.Machine

namespace State.Tallied

variable {s : State}

/-! ### Grants and failures (R40 to R46) -/

theorem grantPort (h : s.Tallied) : s.grantPort.Tallied := by
  have hinternal : ∀ who r, (s.grantInternal who r).Tallied := fun who r => by
    cases who <;> exact h.of_eq rfl
  unfold State.grantPort
  split
  · exact h
  split
  · exact ite (fun _ => h.of_eq rfl) fun _ => hinternal _ _
  · exact h.of_eq rfl
  · exact hinternal _ _
  · exact h

/-- R121, R122, R126, R131: a failure of the Sweep Engine's access, job by job. -/
theorem failSweep (h : s.Tallied) : s.failSweep.Tallied := by
  have hjob := h.job_inRange
  unfold State.failSweep
  split
  · exact h
  · rename_i heq
    rw [heq] at hjob
    exact h.failCapture _ hjob
  · rename_i heq
    rw [heq] at hjob
    exact (h.recordUnreadable hjob.1).sweepOn _ hjob.2
  · rename_i heq
    rw [heq] at hjob
    exact (h.driftSettled hjob).driftOn _
  · rename_i heq
    rw [heq] at hjob
    exact h.finishRestore _ _ _ hjob

theorem owesAgain (h : s.Tallied) (item : RecordItem) : (s.owesAgain item).Tallied := by
  cases item with
  | window => exact h.of_eq rfl
  | circuit k hits => exact (h.putCircuit k (by rfl)).oweCircuit k
  | change => exact h

theorem setWriter (h : s.Tallied) (w : ReportWriter) : (s.setWriter w).Tallied := h.of_eq rfl

theorem failReport (h : s.Tallied) : s.failReport.Tallied := by
  unfold State.failReport
  split
  · exact setWriter (ite (fun _ => h) fun _ => h.owesAgain _) _
  · exact h.of_eq rfl
  · exact h

theorem failInternal (h : s.Tallied) (who : Requester) (r : Request) : (s.failInternal who r).Tallied := by
  have htold := (h.writeFault r.addr who.faultKind 0).raise .busFault
  refine ite (fun _ => htold.releaseHeldSweep) fun _ => ?_
  cases who with
  | passPath => exact htold
  | directive => exact htold.failDirective
  | sweep => exact htold.failSweep
  | report => exact htold.failReport

theorem failForwarded (h : s.Tallied) : s.failForwarded.Tallied := by
  unfold State.failForwarded
  split
  · exact State.Tallied.emptyBuffer (((h.writeFault _ _ _).raise .busFault).of_eq (by rfl))
  · exact ((h.writeFault _ _ _).raise .busFault).of_eq rfl
  · exact h

theorem failAccess (h : s.Tallied) : s.failAccess.Tallied := by
  have hfreed : s.freePort.Tallied := h.of_eq rfl
  have hretry (who : Requester) (r : Request) : (s.freePort.retry who r).Tallied := by
    cases who <;> exact h.of_eq rfl
  unfold State.failAccess
  split
  · exact h
  · dsimp only
    split
    · exact hfreed.failForwarded
    all_goals exact ite (fun _ => hfreed.failInternal _ _) fun _ => hretry _ _

/-! ### The Report Unit (R165 to R169) -/

theorem startReport (h : s.Tallied) : s.startReport.Tallied := by
  refine ite (fun _ => ite (fun _ => h.of_eq rfl) fun _ => ?_) fun _ => h
  split
  · exact h.of_eq rfl
  split
  · rename_i k _
    have hcleared := h.putCircuit k (r := { s.circuit k with fenceHits := 0 }) (by rfl)
    exact hcleared.of_eq rfl
  · exact h

theorem finishRecord (h : s.Tallied) (item : RecordItem) (overtaken : Bool) : (s.finishRecord item overtaken).Tallied := by
  refine ite (fun _ => h.of_eq rfl) fun _ => ?_
  cases item with
  | window | circuit => exact h.of_eq rfl
  | change => exact (h.of_eq (by rfl)).releaseRecord

theorem completeReportWord (h : s.Tallied) : s.completeReportWord.Tallied := by
  unfold State.completeReportWord
  split
  · unfold State.endRecordWord
    split
    · exact (h.of_eq (by rfl)).finishRecord _ _
    · exact h.of_eq rfl
  · exact h

theorem completeSummaryWord (h : s.Tallied) : s.completeSummaryWord.Tallied := by
  unfold State.completeSummaryWord
  split
  · rename_i base left snapshot _ _
    have hseen : (if (left.head?.map Prod.fst) = some 2 then s.freePort.seeSnapshot snapshot else s.freePort).Tallied :=
      ite (fun _ => h.of_eq rfl) fun _ => h.of_eq rfl
    unfold State.endSummaryWord
    dsimp only
    split <;> exact hseen.of_eq rfl
  · exact h

theorem endReportHoldOff (h : s.Tallied) : s.endReportHoldOff.Tallied := by
  unfold State.endReportHoldOff
  split
  · exact h.of_eq rfl
  all_goals exact h

theorem endSummaryHoldOff (h : s.Tallied) : s.endSummaryHoldOff.Tallied := by
  unfold State.endSummaryHoldOff
  split
  · exact h.of_eq rfl
  all_goals exact h

theorem endEvent (h : s.Tallied) : s.endEvent.Tallied := h.of_eq (by rw [State.endEvent_frame]; rfl)

/-! ### The clock and the window's timers (section 0.6, R107 to R144) -/

theorem passPeriod (h : s.Tallied) : s.passPeriod.Tallied :=
  ite (fun _ => h) fun _ => ite (fun _ => h.of_eq rfl) fun _ => h.of_eq rfl

theorem expireDeadline (h : s.Tallied) : s.expireDeadline.Tallied := by
  unfold State.expireDeadline
  split
  · exact ((h.setWindowFlags _ _).raise .overtime).closeWindow
  · exact h

theorem expireSettle (h : s.Tallied) : s.expireSettle.Tallied := by
  unfold State.expireSettle
  split
  · exact (h.of_eq (by rfl)).leaveSettlingIfDone
  · exact h

theorem expireSteady (h : s.Tallied) : s.expireSteady.Tallied := ite (fun _ => (h.of_eq (by rfl)).conclude) fun _ => h

theorem expireVerifyLimit (h : s.Tallied) : s.expireVerifyLimit.Tallied := by
  have hsilenced : s.pendingSilenced.Tallied :=
    h.forEach _ fun _ _ hk hv => hv.changeVerdict .silent _ (State.lt_of_mem_circuitsWhere hk)
  by_cases hrun : s.window.state = .verifying ∧ s.verdict.limit.running = true
  · rw [s.expireVerifyLimit_eq hrun]
    generalize s.pendingSilenced = v at *
    exact (hsilenced.of_eq (by rfl)).conclude
  · have hstays : s.expireVerifyLimit = s := if_neg hrun
    rw [hstays]
    exact h

/-! ### The Sweep Engine's completions (R121 to R131) -/

theorem completeCaptureRead (h : s.Tallied) (data : Word) : (s.completeCaptureRead data).Tallied := by
  have hjob := h.job_inRange
  unfold State.completeCaptureRead
  split
  · rename_i heq
    rw [heq] at hjob
    exact ite (fun _ => h) fun _ => State.Tallied.takeCaptureWord (h.of_eq (by rfl)) _ data hjob
  · exact h

theorem takeCloseWord (h : s.Tallied) {set : List Nat} {k : Nat} (p : Nat) (words : List Word) (data : Word)
    (hk : k < 512) (hset : ∀ j ∈ set, j < 512) : (s.takeCloseWord set k p words data).Tallied :=
  ite (fun _ => h.runJob ⟨hk, hset⟩) fun _ => (h.recordSwept _ hk).sweepOn _ hset

theorem completeCloseSweepRead (h : s.Tallied) (data : Word) : (s.completeCloseSweepRead data).Tallied := by
  have hjob := h.job_inRange
  unfold State.completeCloseSweepRead
  split
  · exact h
  refine ite (fun _ => (h.of_eq (by rfl)).releaseHeldSweep) fun _ => ?_
  split
  · rename_i heq
    rw [heq] at hjob
    exact (h.of_eq (by rfl)).takeCloseWord _ _ data hjob.1 hjob.2
  all_goals exact h

theorem completeDriftSweepRead (h : s.Tallied) (data : Word) : (s.completeDriftSweepRead data).Tallied := by
  have hjob := h.job_inRange
  unfold State.completeDriftSweepRead
  split
  · rename_i heq
    rw [heq] at hjob
    exact ite (fun _ => h) fun _ => State.Tallied.takeDriftWord (h.of_eq (by rfl)) _ data hjob
  · exact h

theorem completeRestoreWrite (h : s.Tallied) : s.completeRestoreWrite.Tallied := by
  have hjob := h.job_inRange
  unfold State.completeRestoreWrite
  split
  · rename_i heq
    rw [heq] at hjob
    exact ite (fun _ => h) fun _ => ite (fun _ => State.Tallied.runJob (h.of_eq (by rfl)) hjob) fun _ =>
      State.Tallied.finishRestore (h.of_eq (by rfl)) _ _ _ hjob
  · exact h

end State.Tallied
end Sys2Proof.Machine
end

section
/-! Settles O54: circuit numbers, state counts and ASSURED kept by the directives, by every command and by the clock. -/

namespace Sys2Proof.Machine

/-! ### The numbers that the checks let pass (R18, R24, R105, R128) -/

theorem loadRange_circuit {layout : Option Layout} {f : LoadFields} (h : loadRange layout f = none) : f.circuit < 512 := by
  by_contra hc
  have hrange : loadRange layout f = some 0 := if_pos (Nat.not_lt.mp hc)
  rw [hrange] at h
  cases h

theorem State.dropRefusal_circuit {s : State} (h : s.dropRefusal = none) : circuitField s.directive.chain < 512 := by
  by_contra hc
  have hrange : s.dropRefusal = some ⟨.refusedRange, 0⟩ := if_pos (Nat.not_lt.mp hc)
  rw [hrange] at h
  cases h

theorem State.restoreRefusal_circuit {s : State} (h : s.restoreRefusal = none) :
    circuitField s.directive.chain < 512 := by
  by_contra hc
  have hrange : s.restoreRefusal = some ⟨.refusedRange, 0⟩ := if_pos (Nat.not_lt.mp hc)
  rw [hrange] at h
  cases h

theorem State.markRefusal_numbers {s : State} (h : s.markRefusal = none) : ∀ c ∈ markList s.directive.chain, c < 512 := by
  by_cases hcount : 1 ≤ markCount s.directive.chain ∧ markCount s.directive.chain ≤ 40
  · rw [s.markRefusal_counted hcount] at h
    split at h
    · cases h
    · rename_i hnone
      exact fun c hc => Nat.not_le.mp (of_decide_eq_false (firstPosition_eq_none.mp hnone c hc))
  · rw [s.markRefusal_uncounted hcount] at h
    cases h

namespace State.Tallied

variable {s t : State}

/-! ### The directives (chapter 9) -/

theorem oweWindow (h : s.Tallied) : s.oweWindow.Tallied := h.of_eq rfl

theorem setDirectiveStep (h : s.Tallied) (st : DirectiveStep) : (s.setDirectiveStep st).Tallied := h.of_eq rfl

theorem acceptLayout (h : s.Tallied) : s.acceptLayout.Tallied := by
  have hovertaken : s.overtakeRecord.Tallied := by
    unfold State.overtakeRecord
    split
    · exact (h.owesAgain _).of_eq rfl
    all_goals exact h
  unfold State.acceptLayout
  dsimp only
  generalize s.overtakeRecord = v at *
  exact oweWindow (State.Tallied.setWindowState (hovertaken.of_eq (by rfl)) .quiet)

theorem acceptPolicy (h : s.Tallied) : s.acceptPolicy.Tallied := (h.setMode _).of_eq rfl

/-- R20, R22: a redefinition leaves the circuit in its state. -/
theorem redefined (h : s.Tallied) (f : LoadFields) (g : Circuit → Circuit) (hg : ∀ r, (g r).state = r.state)
    (hc : f.circuit < 512) : (s.redefined f g).Tallied := by
  have htaken : (s.mapCircuit f.circuit fun r => r.takeParameters f).Tallied := h.putCircuit f.circuit (by rfl)
  have hbound := (htaken.retarget f.circuit f.entries hc).bind f.circuit f.channel hc
  exact hbound.putCircuit f.circuit (hg _)

theorem loadInQuiet (h : s.Tallied) (f : LoadFields) (hc : f.circuit < 512) : (s.loadInQuiet f).Tallied := by
  have hloaded : (s.loadedInQuiet f).Tallied :=
    State.Tallied.setCircuitState ((h.unlistRestore f.circuit).redefined f Circuit.forgetCapture (fun _ => rfl) hc)
      f.circuit .loading hc
  rw [s.loadInQuiet_eq]
  generalize s.loadedInQuiet f = v at *
  refine (hloaded.withSweep (sw := { v.sweep with captureRequest := some f.circuit }) hloaded.job_inRange
    (fun c he => ?_) fun _ => hloaded.restore_lt).startNextJob
  cases he
  exact hc

theorem loadEmptyInOpen (h : s.Tallied) (f : LoadFields) (hc : f.circuit < 512) : (s.loadEmptyInOpen f).Tallied := by
  have hdefined := h.redefined f Circuit.enterHeld (fun _ => rfl) hc
  rw [s.loadEmptyInOpen_eq]
  generalize s.redefined f Circuit.enterHeld = v at *
  exact (hdefined.setCircuitState f.circuit .held hc).setWorkMember f.circuit true

theorem takeEntries (h : s.Tallied) (c : Nat) (new : List Nat) (hc : c < 512) : (s.takeEntries c new).Tallied :=
  ite (fun _ => h) fun _ => (h.retarget c new hc).putCircuit c (by rfl)

theorem takeChannel (h : s.Tallied) (c ch : Nat) (hc : c < 512) : (s.takeChannel c ch).Tallied :=
  ite (fun _ => h) fun _ => (h.bind c ch hc).putCircuit c (by rfl)

theorem loadHeldInOpen (h : s.Tallied) (f : LoadFields) (hc : f.circuit < 512) : (s.loadHeldInOpen f).Tallied := by
  have htaken : (s.mapCircuit f.circuit fun r => r.takeParameters f).Tallied := h.putCircuit f.circuit (by rfl)
  rw [s.loadHeldInOpen_eq]
  generalize (s.mapCircuit f.circuit fun r => r.takeParameters f) = v at *
  exact (htaken.takeEntries f.circuit f.entries hc).takeChannel f.circuit f.channel hc

theorem executeLoad (h : s.Tallied) (f : LoadFields) (hc : f.circuit < 512) : (s.executeLoad f).Tallied := by
  unfold State.executeLoad
  split
  · exact (h.loadInQuiet f hc).setDirectiveStep _
  all_goals
    refine answerDirective (oweCircuit ?_ _) _
    exact ite (fun _ => h.loadEmptyInOpen f hc) fun _ => h.loadHeldInOpen f hc

/-- R18: a LOAD that no check refuses names a circuit of the part. -/
theorem runLoad (h : s.Tallied) : s.runLoad.Tallied := by
  refine ite (fun _ => ?_) fun _ => h
  split
  · exact h.answerDirective _
  · rename_i hnone
    exact h.executeLoad _ (loadRange_circuit (s.loadRefusal_eq_none hnone).1)

theorem acceptDrop (h : s.Tallied) (hr : s.dropRefusal = none) : s.acceptDrop.Tallied :=
  ite (fun _ => h) fun _ => h.release _ (State.dropRefusal_circuit hr)

theorem holdNamed (h : s.Tallied) {k : Nat} (hk : k < 512) : (s.holdNamed k).Tallied := by
  have hjoined := h.setWorkMember k true
  unfold State.holdNamed
  dsimp only
  split
  · exact (hjoined.putCircuit k (by rfl)).setCircuitState k .held hk
  · exact hjoined

theorem acceptOpen (h : s.Tallied) (hr : s.openRefusal = none) : s.acceptOpen.Tallied := by
  have hcaptured := h.forEach State.captureEntry (l := s.loadedCircuits) fun _ k _ hv => hv.putCircuit k (by rfl)
  have hnamed : s.openNamed.Tallied :=
    ((hcaptured.setWindowFlags false false).setWindowNumber _).clearWorkSet.forEach State.holdNamed
      fun _ k hk hv => hv.holdNamed (s.openRefusal_numbers hr k hk)
  rw [s.acceptOpen_eq]
  generalize s.openNamed = v at *
  exact State.Tallied.setWindowState (hnamed.of_eq (by rfl)) .opened

theorem acceptMark (h : s.Tallied) (hr : s.markRefusal = none) : s.acceptMark.Tallied :=
  h.forEach State.markNamed fun _ k hk hv =>
    ite (fun _ => State.Tallied.holdNamed (hv.putCircuit k (by rfl)) (State.markRefusal_numbers hr k hk))
      fun _ => hv.holdNamed (State.markRefusal_numbers hr k hk)

/-- R116: every window circuit leaves. -/
theorem circuitsLeft (h : s.Tallied) (g : Circuit → Circuit) : (s.circuitsLeft g).Tallied :=
  h.forEach (State.leaveWindow g) fun _ k hk hv =>
    (hv.putCircuit k (by rfl)).setCircuitState k _ (State.lt_of_mem_circuitsWhere hk)

theorem stopWindowTimers (h : s.Tallied) : s.stopWindowTimers.Tallied := by
  unfold State.stopWindowTimers
  exact State.Tallied.stopSilence (h.of_eq (by rfl))

theorem oweSweepIfOverrun (h : s.Tallied) : s.oweSweepIfOverrun.Tallied :=
  ite (fun _ => h.setDemand .owed) fun _ => h

theorem clearOverrunIfUnowed (h : s.Tallied) : s.clearOverrunIfUnowed.Tallied :=
  ite (fun _ => h.clearOverrun) fun _ => h

theorem circuitsAbandoned (h : s.Tallied) : s.circuitsAbandoned.Tallied := by
  have hsweep : s.stopCloseSweep.Tallied := by
    unfold State.stopCloseSweep
    split
    · exact h.endJob.of_eq rfl
    all_goals exact h
  exact hsweep.stopWindowTimers.circuitsLeft _

theorem acceptAbandon (h : s.Tallied) : s.acceptAbandon.Tallied := by
  have hwindow : s.windowAbandoned.Tallied := h.circuitsAbandoned.endWindow.oweSweepIfOverrun
  rw [s.acceptAbandon_eq]
  exact hwindow.markDriftDue.startNextJob

theorem circuitsAccepted (h : s.Tallied) : s.circuitsAccepted.Tallied := h.circuitsLeft _

theorem acceptAccept (h : s.Tallied) : s.acceptAccept.Tallied := by
  have hwindow : s.windowAccepted.Tallied := h.circuitsAccepted.endWindow.clearOverrunIfUnowed
  rw [s.acceptAccept_eq]
  exact hwindow.markDriftDue.startNextJob

theorem acceptRestore (h : s.Tallied) (hr : s.restoreRefusal = none) : s.acceptRestore.Tallied := by
  have hlisted := h.withSweep
    (sw := { s.sweep with restoreList := s.sweep.restoreList ++ [circuitField s.directive.chain] }) h.job_inRange
    (fun _ => h.capture_lt) fun c hc => by
      rcases List.mem_append.mp hc with hold | hnew
      · exact h.restore_lt hold
      · rw [List.mem_singleton.mp hnew]
        exact State.restoreRefusal_circuit hr
  exact hlisted.wantSummary.startNextJob

/-! ### Every command -/

/-- What a block's step keeps, the event of its command does. -/
theorem live (h : s.Tallied) (f : State → State) {c : Instr} (hexec : exec c s = .next t)
    (hlive : exec c s = Machine.live f s) (hf : (f s).Tallied) : t.Tallied := by
  rw [hlive] at hexec
  cases hexec
  exact ite (fun _ => h) fun _ => hf.endEvent

/-- R156: a directive is refused, or takes effect and is answered. -/
theorem directive (h : s.Tallied) (k : DirectiveKind) (refusal : State → Option DirectiveAnswer)
    (effect : State → State) {c : Instr} (hexec : exec c s = .next t)
    (hlive : exec c s = Machine.live (fun s => s.runDirective k refusal effect) s)
    (hf : refusal s = none → (effect s).Tallied) : t.Tallied := by
  refine h.live _ hexec hlive (ite (fun _ => ?_) fun _ => h)
  split
  · exact h.answerDirective _
  · rename_i hnone
    exact (hf hnone).answerDirective _

theorem presentWrite (h : s.Tallied) {addr : WordAddr} {data : Word} {lanes : Lanes} {m : Master} {c : Instr}
    (hexec : exec c s = .next t) (hwrite : exec c s = Machine.presentWrite addr data lanes m s) : t.Tallied := by
  unfold Machine.presentWrite at hwrite
  split at hwrite
  · cases hwrite.symm.trans hexec
  · exact h.live (fun s => s.present addr (.write data lanes) m) hexec hwrite (h.present _ _ _)

/-- Every command but the resets. -/
theorem exec (h : s.Tallied) {c : Instr} (hreset : c ≠ .reset) (hend : ∀ d b, c ≠ .resetEnd d b)
    (he : Machine.exec c s = .next t) : t.Tallied := by
  cases c with
  | reset => exact absurd rfl hreset
  | resetEnd d b => exact absurd rfl (hend d b)
  | connectionWrite | landingTagWrite | consumerWordWrite | upstreamWrite => exact h.presentWrite he rfl
  | closingWord addr data m =>
    exact h.live (fun s => s.present addr (.write data 0xF) m) he rfl (h.present _ _ _)
  | upstreamRead addr m => exact h.live (fun s => s.present addr .read m) he rfl (h.present _ _ _)
  | lateErrorAccess addr op m =>
    cases op with
    | read => exact h.live (fun s => s.present addr .read m) he rfl (h.present _ _ _)
    | write => exact h.presentWrite he rfl
  | holdLimitExpiry => exact h.live State.expireHold he rfl h.expireHold
  | portGrant => exact h.live State.grantPort he rfl h.grantPort
  | forwardedWriteComplete => exact h.live State.completeForwardedWrite he rfl h.completeForwardedWrite
  | forwardedReadComplete data =>
    exact h.live (fun s => s.completeForwardedRead data) he rfl (h.completeForwardedRead data)
  | downstreamTimeout | downstreamErrorCompletion => exact h.live State.failAccess he rfl h.failAccess
  | classify => exact h.live State.classifyNext he rfl h.classifyNext
  | arrivalConsumption => exact h.live State.consumeArrival he rfl h.consumeArrival
  | silenceExpiry channel => exact h.live (fun s => s.expireSilence channel.val) he rfl (h.expireSilence _)
  | layout => exact h.directive .layout State.layoutRefusal State.acceptLayout he rfl fun _ => h.acceptLayout
  | setPolicy => exact h.directive .setPolicy State.policyRefusal State.acceptPolicy he rfl fun _ => h.acceptPolicy
  | load => exact h.live State.runLoad he rfl h.runLoad
  | drop => exact h.directive .drop State.dropRefusal State.acceptDrop he rfl h.acceptDrop
  | openWindow => exact h.directive .openWindow State.openRefusal State.acceptOpen he rfl h.acceptOpen
  | mark => exact h.directive .mark State.markRefusal State.acceptMark he rfl h.acceptMark
  | close =>
    exact h.directive .close (fun s => s.refusedUnless .opened) State.closeWindow he rfl fun _ => h.closeWindow
  | abandon => exact h.directive .abandon State.abandonRefusal State.acceptAbandon he rfl fun _ => h.acceptAbandon
  | accept =>
    exact h.directive .accept (fun s => s.refusedUnless .concluded) State.acceptAccept he rfl fun _ => h.acceptAccept
  | recheck =>
    exact h.directive .recheck (fun s => s.refusedUnless .concluded) (fun s => s.enterVerifying Circuit.rechecked) he rfl
      fun _ => h.enterVerifying _
  | restore => exact h.directive .restore State.restoreRefusal State.acceptRestore he rfl h.acceptRestore
  | deadlineExpiry => exact h.live State.expireDeadline he rfl h.expireDeadline
  | settleExpiry => exact h.live State.expireSettle he rfl h.expireSettle
  | steadyExpiry => exact h.live State.expireSteady he rfl h.expireSteady
  | verifyLimitExpiry => exact h.live State.expireVerifyLimit he rfl h.expireVerifyLimit
  | captureReadComplete data =>
    exact h.live (fun s => s.completeCaptureRead data) he rfl (h.completeCaptureRead data)
  | closeSweepReadComplete data =>
    exact h.live (fun s => s.completeCloseSweepRead data) he rfl (h.completeCloseSweepRead data)
  | driftSweepReadComplete data =>
    exact h.live (fun s => s.completeDriftSweepRead data) he rfl (h.completeDriftSweepRead data)
  | restoreWriteComplete => exact h.live State.completeRestoreWrite he rfl h.completeRestoreWrite
  | directiveFetchReadComplete data =>
    exact h.live (fun s => s.completeFetchRead data) he rfl (h.completeFetchRead data)
  | directiveCompletionWriteEnd => exact h.live State.completeCompletionWrite he rfl h.completeCompletionWrite
  | reportWriteStart => exact h.live State.startReport he rfl h.startReport
  | reportWordComplete => exact h.live State.completeReportWord he rfl h.completeReportWord
  | reportHoldOffExpiry => exact h.live State.endReportHoldOff he rfl h.endReportHoldOff
  | summaryRewriteStart => exact h.live State.rewriteSummary he rfl h.endEvent
  | summaryWordComplete => exact h.live State.completeSummaryWord he rfl h.completeSummaryWord
  | summaryHoldOffExpiry => exact h.live State.endSummaryHoldOff he rfl h.endSummaryHoldOff
  | attnPulseEnd => exact h.live State.endPulse he rfl (h.of_eq (by rfl))

/-! ### Every step -/

theorem reset : State.reset.Tallied := by
  obtain ⟨-, -, -, -, hnumbers, hcounts, hassured, -⟩ := resetMeetsInvariants
  exact ⟨hnumbers, hcounts, hassured⟩

/-- A step is a command, a reset or a period of the clock. -/
theorem step (h : s.Tallied) (hstep : Machine.step s = .next t) : t.Tallied := by
  unfold Machine.step at hstep
  split at hstep
  · cases hstep
    exact h.passPeriod
  · rename_i c rest _
    have hdequeued : ({ s with pending := rest } : State).Tallied := h.of_eq rfl
    by_cases hr : c = .reset
    · subst hr
      cases hstep
      exact reset.of_eq rfl
    by_cases he : ∃ d b, c = .resetEnd d b
    · obtain ⟨d, b, rfl⟩ := he
      cases hstep
      exact ite (fun _ => reset.of_eq rfl) fun _ => hdequeued
    · exact hdequeued.exec hr (fun d b hc => he ⟨d, b, hc⟩) hstep

end State.Tallied

/-- Settles O54: only changes of a circuit's state move the counts, and ASSURED follows each of them and each change of the
window state. -/
theorem countsAndAssuredFollow : Obligations.CountsAndAssuredFollow := by
  unfold Obligations.CountsAndAssuredFollow
  intro s t hnumbers hcounts hassured h
  obtain ⟨tn, tc, ta⟩ := State.Tallied.step ⟨hnumbers, hcounts, hassured⟩ h
  exact ⟨tn, tc, ta⟩

end Sys2Proof.Machine
end

section
/-! Settles O13 and O51: what a read of the attention word clears (R170), what a raised cause marks (R169), and the end of
the ATTN pulse. -/

namespace Sys2Proof.Machine

/-! ### Sets of causes -/

theorem Cause.bit_lt (c : Cause) : c.bit < 9 := by cases c <;> decide

/-- R169, R170: the causes of `x` that are in `seen` and not marked leave `x`. -/
theorem Cause.getLsbD_unmarked (x seen marks : BitVec 9) (c : Cause) :
    (x &&& ~~~(seen &&& ~~~marks)).getLsbD c.bit
      = (x.getLsbD c.bit && !(seen.getLsbD c.bit && !marks.getLsbD c.bit)) := by
  simp [c.bit_lt]

/-- R169: a cause joins a set. -/
theorem Cause.getLsbD_joined (x : BitVec 9) (c k : Cause) :
    (x ||| c.mask).getLsbD k.bit = (x.getLsbD k.bit || decide (k = c)) := by
  rw [BitVec.getLsbD_or, Cause.mask_bit]

theorem Cause.absent_eq (x : BitVec 9) (c : Cause) : decide (x &&& c.mask = 0) = !x.getLsbD c.bit := by
  rw [Bool.eq_iff_iff, decide_eq_true_iff, Cause.mask_and_eq_zero, Bool.not_eq_true']

variable (s : State)

/-! ### A forwarded read completes (R31, R39, R170) -/

/-- R31, R39: the data is handed to the master, and the Pass Path is IDLE. -/
def State.readHandedOver (m : Master) (data : Word) : State := s.freePort.answerMaster m (.readData data)

theorem exec_forwardedReadComplete {s : State} {r : Request} {a : Access} (data : Word) (h : s.inProgress .passPath r)
    (hb : s.pass.buffer = none) (ha : s.pass.step = .readOut a) :
    exec (.forwardedReadComplete data) s = .next (State.endEvent
      (if a.cls = .attentionWord then (s.readHandedOver a.master data).clearAttention data
        else s.readHandedOver a.master data)) := by
  obtain ⟨hreset, n, hport⟩ := h
  have hof : s.portOf .passPath = some r := by simp [State.portOf, hport]
  refine (live_running s (fun s => s.completeForwardedRead data) hreset).trans ?_
  simp [State.completeForwardedRead, hof, hb, ha, State.readHandedOver]

/-- R170: which causes a read of the attention word clears. -/
theorem State.clearAttention_pendingBit (data : Word) (c : Cause) :
    (s.clearAttention data).report.pending.getLsbD c.bit
      = (s.report.pending.getLsbD c.bit && !(data.getLsbD c.bit && !s.report.unseen.getLsbD c.bit)) := by
  refine (Cause.getLsbD_unmarked _ _ _ c).trans ?_
  rw [BitVec.getLsbD_setWidth, decide_eq_true c.bit_lt, Bool.true_and]

/-- Settles O13: both kinds of word hand the data over, and only the attention word goes on to clear causes. -/
theorem forwardedReadCompletes : Obligations.ForwardedReadCompletes := by
  unfold Obligations.ForwardedReadCompletes
  intro s r a data hprogress hbuffer hstep
  refine ⟨_, exec_forwardedReadComplete data hprogress hbuffer hstep, ?_⟩
  by_cases hattention : a.cls = .attentionWord
  · rw [if_pos hattention]
    refine ⟨rfl, fun c => ?_, rfl⟩
    rw [State.clearAttention_pendingBit, decide_eq_true hattention, Bool.true_and]
    rfl
  · rw [if_neg hattention]
    refine ⟨rfl, fun c => ?_, ?_⟩
    · simp [State.readHandedOver, hattention]
    · simp [State.readHandedOver]

/-! ### A raised cause and the end of the pulse (R169) -/

/-- R169: what a cause raised with its enable set marks. -/
theorem State.raise_marked (c : Cause) (h : s.report.enables.getLsbD c.bit = true) :
    s.raise c = { s with report := { s.report with
      pending := s.report.pending ||| c.mask
      unseen := s.report.unseen ||| c.mask
      raised := s.report.raised ||| c.mask
      attn := if s.report.pending = 0 then some 25 else s.report.attn
      wanted := s.report.wanted || !s.report.pending.getLsbD c.bit } } := by
  have henabled : s.report.enables &&& c.mask ≠ 0 := fun h0 => by
    rw [Cause.mask_and_eq_zero, h] at h0
    cases h0
  rw [s.raise_enabled c henabled, Cause.absent_eq]

/-- Settles O51: the raise by its enable, then the end of the pulse. -/
theorem attentionRaisedAndPulseEnds : Obligations.AttentionRaisedAndPulseEnds := by
  unfold Obligations.AttentionRaisedAndPulseEnds
  refine fun s c => ⟨fun hdisabled => ?_, fun henabled => ?_, fun hreset => live_running s State.endPulse hreset⟩
  · exact s.raise_disabled c ((Cause.mask_and_eq_zero _ c).mpr hdisabled)
  · rw [s.raise_marked c henabled]
    exact ⟨fun k => ⟨Cause.getLsbD_joined _ c k, Cause.getLsbD_joined _ c k, Cause.getLsbD_joined _ c k⟩, rfl, rfl, rfl⟩

end Sys2Proof.Machine
end

section
/-! Settles O50: the words that the Report Unit packs, by their bits (R173), and the summary rewrite: when it starts, what
it writes, and its end (R168, R169). -/

namespace Sys2Proof.Machine

/-! ### Packed words -/

/-- The packed fields are the bits of `x`, from bit `lo` upward. -/
def Packs (lo : Nat) (fields : List (Nat × Nat × Nat)) {n : Nat} (x : BitVec n) : Prop :=
  ∀ acc, fields.foldl (fun n f => n + f.2.2 % 2 ^ f.2.1 * 2 ^ f.1) acc = acc + x.toNat * 2 ^ lo

namespace Packs

variable {lo n len : Nat} {fields : List (Nat × Nat × Nat)} {x : BitVec n}

/-- Above the last field every bit is zero. -/
theorem zero (k : Nat) : Packs lo [] 0#k := fun acc => by simp

theorem top (v : Nat) : Packs lo [(lo, len, v)] (BitVec.ofNat len v) := fun acc => by simp

/-- A field stands below those after it. -/
theorem field (v : Nat) (h : Packs (lo + len) fields x) : Packs lo ((lo, len, v) :: fields) (x ++ BitVec.ofNat len v) :=
  fun acc => by
    rw [List.foldl_cons, h, toNat_append_eq_add, BitVec.toNat_ofNat, Nat.pow_add]
    ring

/-- Bits between two fields are zero. -/
theorem gap (k : Nat) (h : Packs (lo + k) fields x) : Packs lo fields (x ++ 0#k) := fun acc => by
  rw [h, toNat_append_eq_add, Nat.pow_add]
  simp only [BitVec.toNat_zero]
  ring

theorem topBits (y : BitVec len) : Packs lo [(lo, len, y.toNat)] y := by
  simpa using Packs.top (lo := lo) (len := len) y.toNat

theorem bits (y : BitVec len) (h : Packs (lo + len) fields x) : Packs lo ((lo, len, y.toNat) :: fields) (x ++ y) := by
  simpa using h.field y.toNat

theorem flag (b : Bool) (h : Packs (lo + 1) fields x) :
    Packs lo ((lo, 1, Machine.flag b) :: fields) (x ++ BitVec.ofBool b) := by
  cases b <;> exact h.field _

theorem topFlag (b : Bool) : Packs lo [(lo, 1, Machine.flag b)] (BitVec.ofBool b) := by
  cases b <;> exact Packs.top _

theorem word {x : Word} (h : Packs 0 fields x) : packWord fields = x := by
  unfold packWord
  rw [h 0]
  simp

end Packs

/-! ### The summary's words (R173) -/

theorem packHalf (g : BitVec 16) : packWord [(0, 16, g.toNat)] = 0#16 ++ g := Packs.word (.bits _ (.zero 16))

theorem packCounts (low high : Nat) :
    packWord [(0, 16, low), (16, 16, high)] = BitVec.ofNat 16 high ++ BitVec.ofNat 16 low :=
  Packs.word (.field _ (.top _))

theorem packWindow (number : BitVec 16) (code : Nat) (overrun overtime guard rejected : Bool) :
    packWord [(0, 16, number.toNat), (16, 4, code), (20, 1, flag overrun), (21, 1, flag overtime), (24, 1, flag guard),
        (25, 1, flag rejected)]
      = 0#6 ++ BitVec.ofBool rejected ++ BitVec.ofBool guard ++ 0#2 ++ BitVec.ofBool overtime ++ BitVec.ofBool overrun
        ++ BitVec.ofNat 4 code ++ number :=
  Packs.word (.bits _ (.field _ (.flag _ (.flag _ (.gap 2 (.flag _ (.flag _ (.zero 6))))))))

theorem packCauses (pending : BitVec 9) : packWord [(0, 9, pending.toNat)] = 0#23 ++ pending :=
  Packs.word (.bits _ (.zero 23))

theorem packJournal (occupancy phase arrivals : Nat) (empty half full overrun : Bool) :
    packWord [(0, 9, occupancy), (12, 1, flag empty), (13, 1, flag half), (14, 1, flag full), (15, 1, flag overrun),
        (16, 2, phase), (24, 6, arrivals)]
      = 0#2 ++ BitVec.ofNat 6 arrivals ++ 0#6 ++ BitVec.ofNat 2 phase ++ BitVec.ofBool overrun ++ BitVec.ofBool full
        ++ BitVec.ofBool half ++ BitVec.ofBool empty ++ 0#3 ++ BitVec.ofNat 9 occupancy :=
  Packs.word (.field _ (.gap 3 (.flag _ (.flag _ (.flag _ (.flag _ (.field _ (.gap 6 (.field _ (.zero 2))))))))))

theorem packAddress (addr : Nat) : packWord [(0, 32, addr)] = BitVec.ofNat 32 addr := Packs.word (.top _)

theorem packFault (kind restores : Nat) (m : Master) :
    packWord [(0, 3, kind), (4, 4, m.toNat), (16, 4, restores)]
      = 0#12 ++ BitVec.ofNat 4 restores ++ 0#8 ++ m ++ 0#1 ++ BitVec.ofNat 3 kind :=
  Packs.word (.field _ (.gap 1 (.bits _ (.gap 8 (.field _ (.zero 12))))))

/-- Section 11.1: window state codes, numbered in the order of the states. -/
theorem windowCode_eq (w : WindowState) :
    [WindowState.noLayout, .quiet, .opened, .settling, .sweeping, .verifying, .concluded].idxOf w = w.code := by
  cases w <;> rfl

theorem phaseCode_eq (p : Phase) : [Phase.outside, .opened, .closed].idxOf p = p.code := by cases p <;> rfl

theorem faultCode_eq (k : FaultKind) :
    [FaultKind.none, .read, .write, .directive, .sweep, .report].idxOf k = k.code := by cases k <;> rfl

variable (s : State)

/-- R168, R173: the words of a rewrite, field by field. -/
theorem State.summaryWords_eq (g : BitVec 16) :
    let counts (a b : CircuitState) : Word := BitVec.ofNat 16 (s.count b) ++ BitVec.ofNat 16 (s.count a)
    s.summaryWords g =
      [(0, 0#16 ++ g),
        (1, 0#6 ++ BitVec.ofBool s.report.rejected ++ BitVec.ofBool (decide (s.store.mode = .guard)) ++ 0#2
          ++ BitVec.ofBool s.window.overtime ++ BitVec.ofBool s.window.overrun ++ BitVec.ofNat 4 s.window.state.code
          ++ s.window.number),
        (2, 0#23 ++ s.report.pending), (3, s.report.consumer ++ s.report.producer),
        (4, counts .empty .loading), (5, counts .settled .drifted), (6, counts .faulted .restoring),
        (7, counts .held .pending), (8, counts .confirmed .degraded), (9, counts .broken .silent),
        (10, 0#2 ++ BitVec.ofNat 6 s.trace.arrivals.length ++ 0#6 ++ BitVec.ofNat 2 (s.journal.overrun.elim 0 Phase.code)
          ++ BitVec.ofBool s.journal.overrun.isSome ++ BitVec.ofBool s.journal.full ++ BitVec.ofBool s.journal.half
          ++ BitVec.ofBool s.journal.empty ++ 0#3 ++ BitVec.ofNat 9 s.journal.occupancy),
        (11, BitVec.ofNat 32 s.arbiter.fault.addr),
        (12, 0#12 ++ BitVec.ofNat 4 s.sweep.restoreList.length ++ 0#8 ++ s.arbiter.fault.master ++ 0#1
          ++ BitVec.ofNat 3 s.arbiter.fault.kind.code),
        (14, 0), (15, 0#16 ++ g)] := by
  unfold State.summaryWords
  simp only [BitVec.ofNat_toNat, BitVec.setWidth_eq, packHalf, packCounts, packWindow, packCauses, packJournal,
    packAddress, packFault]

/-! ### A rewrite starts (R168) -/

theorem State.summaryDue_iff :
    s.summaryDue = true ↔ s.report.summary = .idle ∧ s.report.wanted = true ∧ s.layout.isSome = true
      ∧ s.report.writer.isWriting = false := by
  simp [State.summaryDue, and_assoc]

theorem State.startSummary_eq {l : Layout} (hl : s.layout = some l) :
    s.startSummary = { s with
      report := { s.report with
        generation := s.report.generation + 1, wanted := false, raised := 0
        summary := .writing l.summaryBase (s.summaryWords (s.report.generation + 1)) s.report.pending }
      arbiter := { s.arbiter with
        report := some { addr := l.summaryBase, write := some (0#16 ++ (s.report.generation + 1), 0xF) } } } := by
  have hfirst : ((s.summaryWords (s.report.generation + 1)).getD 0 (0, 0)).2 = 0#16 ++ (s.report.generation + 1) :=
    packHalf _
  unfold State.startSummary State.requestReport
  dsimp only
  rw [hfirst, hl]
  rfl

/-- R168: SUMMARY_REWRITE_START starts what the end of every event starts, and that leaves nothing more due. -/
theorem exec_summaryRewriteStart : exec .summaryRewriteStart s = .next (if s.inReset then s else s.endEvent) := by
  have honce : s.endEvent.endEvent = s.endEvent := s.endEvent.endEvent_idle s.endEvent_notDue
  have hlive : exec .summaryRewriteStart s = .next (if s.inReset then s else s.endEvent.endEvent) := rfl
  rw [hlive, honce]

/-- R168: with the conditions met the rewrite starts, at the end of the event and by its command. -/
theorem State.summaryRewrite_starts {t : State} (hdue : s.summaryDue = true) (ht : s.startSummary = t) :
    s.endEvent = t ∧ (s.inReset = false → exec .summaryRewriteStart s = .next t) := by
  have hend : s.endEvent = t := (s.endEvent_due hdue).trans ht
  refine ⟨hend, fun hreset => ?_⟩
  rw [exec_summaryRewriteStart, hreset, hend]
  rfl

theorem State.summaryRewrite_idle (hdue : s.summaryDue = false) :
    s.endEvent = s ∧ exec .summaryRewriteStart s = .next s := by
  have hend := s.endEvent_idle hdue
  refine ⟨hend, ?_⟩
  rw [exec_summaryRewriteStart, hend, ite_self]

/-! ### A word completes (R168, R169) -/

variable {s} {r : Request} {base : Nat} {left : List (Nat × Word)} {snapshot : BitVec 9}

theorem exec_summaryWordComplete (h : s.inProgress .report r)
    (hw : s.report.summary = .writing base left snapshot) :
    exec .summaryWordComplete s = .next (s.freePort.endSummaryWord base left snapshot).endEvent := by
  obtain ⟨hreset, n, hport⟩ := h
  have hof : s.portOf .report = some r := by simp [State.portOf, hport]
  refine (live_running s State.completeSummaryWord hreset).trans ?_
  simp [State.completeSummaryWord, hof, hw]

/-- R169: word 2 is the attention word. -/
theorem State.endSummaryWord_eq (s : State) (k : Nat) (w : Word) :
    s.endSummaryWord base ((k, w) :: left) snapshot = { s with
      arbiter := { s.arbiter with
        report := match left with
          | [] => s.arbiter.report
          | (n, x) :: _ => some { addr := base + 4 * n, write := some (x, 0xF) } }
      report := { s.report with
        unseen := if k = 2 then s.report.unseen &&& ~~~(snapshot &&& ~~~s.report.raised) else s.report.unseen
        summary := if left = [] then .holdOff 1 else .writing base left snapshot } } := by
  by_cases hk : k = 2
  · subst hk
    cases left <;> rfl
  · cases left <;> simp [State.endSummaryWord, State.setSummary, State.requestReport, hk]

/-- R45, R168: the failure of a summary word ends the rewrite; the fault record has made the summary wanted. -/
theorem exec_summaryFails {i : Instr} (hi : failsAccess i) (h : s.inProgress .report r) (hretry : r.retry = true)
    (hstale : r.stale = false) (hwriter : s.report.writer.isWriting = false)
    (hw : s.report.summary = .writing base left snapshot) :
    exec i s = .next (State.endEvent { s with
      arbiter := { s.arbiter with port := none, fault := ⟨r.addr, .report, 0⟩ }
      report := { (s.wantSummary.raise .busFault).report with summary := .holdOff 1 } }) := by
  have hfail : s.freePort.failInternal .report r = (s.reportFaulted r).failReport := by
    simp [State.failInternal, hstale, State.reportFaulted, Requester.faultKind]
  have hwanted : (s.wantSummary.raise .busFault).report.wanted = true := State.raise_wanted _ rfl
  have hkept : (s.wantSummary.raise .busFault).report.writer = s.report.writer
      ∧ (s.wantSummary.raise .busFault).report.summary = s.report.summary := by
    rw [State.raise_frame]
    exact ⟨rfl, rfl⟩
  rw [exec_secondFailure hi h (by decide) hretry, hfail, s.reportFaulted_frame]
  generalize (s.wantSummary.raise .busFault).report = told at *
  obtain ⟨hsame, hsummary⟩ := hkept
  rw [hw] at hsummary
  rw [← hsame] at hwriter
  cases hcase : told.writer with
  | writing =>
    rw [hcase] at hwriter
    cases hwriter
  | idle | holdOff => simp [State.failReport, hcase, hsummary, State.setSummary, State.wantSummary, hwanted]

/-- Settles O50: the start and its words by their bits, then a word's end and its failure, then the end of the hold-off. -/
theorem summaryRewritten : Obligations.SummaryRewritten := by
  unfold Obligations.SummaryRewritten
  refine ⟨fun s l hl hidle hwanted hwriter => ?starts, fun s hnot => ?idle,
    fun s r base k w left snapshot hprogress hw => ⟨?word, fun i hi hretry hstale hwriter =>
      exec_summaryFails hi hprogress hretry hstale hwriter hw⟩, fun s n hreset hhold => ?holdOff⟩
  case starts =>
    have hdue : s.summaryDue = true := s.summaryDue_iff.mpr ⟨hidle, hwanted, by rw [hl]; rfl, hwriter⟩
    refine s.summaryRewrite_starts hdue ?_
    rw [s.startSummary_eq hl, s.summaryWords_eq]
    simp only [windowCode_eq, phaseCode_eq, faultCode_eq]
    rfl
  case idle =>
    refine s.summaryRewrite_idle (Bool.eq_false_of_not_eq_true fun hdue => ?_)
    obtain ⟨hidle, hwanted, hlayout, hwriter⟩ := s.summaryDue_iff.mp hdue
    simp [hidle, hwanted, hwriter, Option.isSome_iff_ne_none.mp hlayout] at hnot
  case word =>
    refine ⟨_, exec_summaryWordComplete hprogress hw, ?_⟩
    rw [State.endSummaryWord_eq]
    refine ⟨rfl, fun c => ?_⟩
    by_cases hk : k = 2
    · rw [decide_eq_true hk, Bool.true_and]
      exact (congrArg (BitVec.getLsbD · c.bit) (if_pos hk)).trans (Cause.getLsbD_unmarked _ _ _ c)
    · simp [hk]
  case holdOff =>
    refine (live_running s State.endSummaryHoldOff hreset).trans ?_
    unfold State.endSummaryHoldOff
    rw [hhold]
    rfl

end Sys2Proof.Machine
end

section
/-! Settles O48: the words of the three reports by their bits (R167, R173), the choice among them (R165), and how each is
started (R166). -/

namespace Sys2Proof.Machine

/-! ### The words of a report (R167, R173) -/

theorem recordHead_eq (number : BitVec 16) (kind : BitVec 2) :
    recordHead number kind.toNat = 0#14 ++ kind ++ number :=
  Packs.word (.bits _ (.bits _ (.zero 14)))

theorem packWindowState (number : BitVec 16) (code : Nat) (overrun overtime : Bool) :
    packWord [(0, 16, number.toNat), (16, 4, code), (20, 1, flag overrun), (21, 1, flag overtime)]
      = 0#10 ++ BitVec.ofBool overtime ++ BitVec.ofBool overrun ++ BitVec.ofNat 4 code ++ number :=
  Packs.word (.bits _ (.field _ (.flag _ (.flag _ (.zero 10)))))

theorem packWorkSet (size : Nat) : packWord [(0, 10, size)] = 0#22 ++ BitVec.ofNat 10 size :=
  Packs.word (.field _ (.zero 22))

theorem packChanged (seq : BitVec 16) (index : Nat) :
    packWord [(0, 16, seq.toNat), (16, 13, index)] = 0#3 ++ BitVec.ofNat 13 index ++ seq :=
  Packs.word (.bits _ (.field _ (.zero 3)))

theorem packJudged (lanes : Lanes) (m : Master) (phase judgement owner : Nat) (fenced : Bool) :
    packWord [(0, 4, lanes.toNat), (4, 4, m.toNat), (8, 2, phase), (10, 1, flag fenced), (12, 3, judgement),
        (16, 10, owner)]
      = 0#6 ++ BitVec.ofNat 10 owner ++ 0#1 ++ BitVec.ofNat 3 judgement ++ 0#1 ++ BitVec.ofBool fenced
        ++ BitVec.ofNat 2 phase ++ m ++ lanes :=
  Packs.word (.bits _ (.bits _ (.field _ (.flag _ (.gap 1 (.field _ (.gap 1 (.field _ (.zero 6)))))))))

theorem packCircuit (c state cause entry result outcome : Nat) (undeclared : Bool) :
    packWord [(0, 9, c), (12, 4, state), (16, 4, cause), (20, 2, entry), (22, 3, result), (25, 4, outcome),
        (31, 1, flag undeclared)]
      = BitVec.ofBool undeclared ++ 0#2 ++ BitVec.ofNat 4 outcome ++ BitVec.ofNat 3 result ++ BitVec.ofNat 2 entry
        ++ BitVec.ofNat 4 cause ++ BitVec.ofNat 4 state ++ 0#3 ++ BitVec.ofNat 9 c :=
  Packs.word (.field _ (.gap 3 (.field _ (.field _ (.field _ (.field _ (.field _ (.gap 2 (.topFlag _)))))))))

theorem packPowers (power deviation : Option Int) :
    packWord [(0, 16, powerField power), (16, 16, powerField deviation)]
      = BitVec.ofInt 16 (deviation.getD (-32768)) ++ BitVec.ofInt 16 (power.getD (-32768)) :=
  Packs.word (.bits _ (.topBits _))

theorem packCounters (changes hits verdicts : Nat) :
    packWord [(0, 8, changes), (8, 8, hits), (16, 8, verdicts)]
      = 0#8 ++ BitVec.ofNat 8 verdicts ++ BitVec.ofNat 8 hits ++ BitVec.ofNat 8 changes :=
  Packs.word (.field _ (.field _ (.field _ (.zero 8))))

/-! ### Section 11.1: the codes, numbered in the order of the values -/

theorem classificationCode_eq (x : Classification) :
    [Classification.declared, .undeclared, .drift, .fenced, .stray].idxOf x + 1 = x.code := by cases x <;> rfl

theorem circuitStateCode_eq (x : CircuitState) :
    [CircuitState.empty, .loading, .settled, .drifted, .faulted, .restoring, .held, .pending, .confirmed, .degraded,
      .broken, .silent].idxOf x = x.code := by cases x <;> rfl

theorem causeCode_eq (x : Option VerdictCause) :
    [none, some VerdictCause.matched, some .powerLow, some .powerHigh, some .tagMismatch, some .unequipped, some .dark,
      some .noArrivals, some .noEvidence, some .unreadable].idxOf x = causeCode x := by
  cases x with
  | none => rfl
  | some x => cases x <;> rfl

theorem entryConditionCode_eq (x : Option EntryCondition) :
    [none, some EntryCondition.good, some .bad, some .unknown].idxOf x = entryConditionCode x := by
  cases x with
  | none => rfl
  | some x => cases x <;> rfl

theorem sweepResultCode_eq (x : Option SweepResult) :
    [none, some SweepResult.unchanged, some .changed, some .new, some .unreadable].idxOf x = sweepResultCode x := by
  cases x with
  | none => rfl
  | some x => cases x <;> rfl

/-! ### The records -/

variable (s : State)

theorem State.windowRecord_eq :
    s.windowRecord =
      [0#14 ++ 1#2 ++ s.report.producer,
        0#10 ++ BitVec.ofBool s.window.overtime ++ BitVec.ofBool s.window.overrun ++ BitVec.ofNat 4 s.window.state.code
          ++ s.window.number,
        0#22 ++ BitVec.ofNat 10 (Table.marked s.window.workSet).length,
        BitVec.ofNat 32 s.verdict.limit.remaining] := by
  unfold State.windowRecord
  dsimp only
  rw [show recordHead s.report.producer 1 = _ from recordHead_eq _ 1#2, packWindowState, packWorkSet, packAddress]

theorem State.changeRecord_eq (j : Judged) :
    s.changeRecord j =
      [0#14 ++ 3#2 ++ s.report.producer, j.record.value,
        0#3 ++ BitVec.ofNat 13 j.record.index ++ j.record.seq,
        0#6 ++ BitVec.ofNat 10 (j.owner.getD 512) ++ 0#1 ++ BitVec.ofNat 3 j.classification.code ++ 0#1
          ++ BitVec.ofBool j.record.fenced ++ BitVec.ofNat 2 j.record.phase.code ++ j.record.master
          ++ j.record.lanes] := by
  unfold State.changeRecord
  dsimp only
  rw [show recordHead s.report.producer 3 = _ from recordHead_eq _ 3#2, packChanged, packJudged]

theorem State.circuitRecord_eq (c : Nat) :
    let r := s.circuit c
    s.circuitRecord c =
      [0#14 ++ 2#2 ++ s.report.producer,
        BitVec.ofBool r.undeclared ++ 0#2 ++ BitVec.ofNat 4 (restoreOutcomeCode r.restoreOutcome)
          ++ BitVec.ofNat 3 (sweepResultCode r.sweepResult) ++ BitVec.ofNat 2 (entryConditionCode r.entryCondition)
          ++ BitVec.ofNat 4 (causeCode r.cause) ++ BitVec.ofNat 4 r.state.code ++ 0#3 ++ BitVec.ofNat 9 c,
        BitVec.ofInt 16 ((s.deviationOf r).getD (-32768)) ++ BitVec.ofInt 16 ((s.powerOf r).getD (-32768)),
        0#8 ++ BitVec.ofNat 8 r.verdictChanges ++ BitVec.ofNat 8 r.fenceHits ++ BitVec.ofNat 8 r.changeCount] := by
  unfold State.circuitRecord
  dsimp only
  rw [show recordHead s.report.producer 2 = _ from recordHead_eq _ 2#2, packCircuit, packPowers, packCounters]

/-- R93, R167: the deviation is present when both powers are. -/
theorem State.deviationOf_eq (r : Circuit) :
    s.deviationOf r = (s.powerOf r).bind fun p => r.reference.map fun q => p - q := by
  unfold State.deviationOf
  cases s.powerOf r <;> cases r.reference <;> rfl

/-! ### The choice (R165) -/

/-- R165: the first owed circuit above the last one reported. -/
theorem State.nextOwedCircuit_eq {n : Nat} (hn : n < 512)
    (hbefore : ∀ k, k < n → Table.get false s.report.owed ((s.report.lastReported + 1 + k) % 512) = false)
    (howed : Table.get false s.report.owed ((s.report.lastReported + 1 + n) % 512) = true) :
    s.nextOwedCircuit = some ((s.report.lastReported + 1 + n) % 512) := by
  have hfirst : (List.range 512).find? (fun k => Table.get false s.report.owed ((s.report.lastReported + 1 + k) % 512))
      = some n := by
    rw [List.find?_range_eq_some]
    exact ⟨howed, List.mem_range.mpr hn, fun k hk => by rw [hbefore k hk]; rfl⟩
  exact List.find?_map.trans <| congrArg (Option.map _) hfirst

theorem State.nextOwedCircuit_none (h : ∀ c, c < 512 → Table.get false s.report.owed c = false) :
    s.nextOwedCircuit = none := by
  refine List.find?_eq_none.mpr fun c hc => ?_
  obtain ⟨k, -, rfl⟩ := List.mem_map.mp hc
  have hunowed := h _ (Nat.mod_lt (s.report.lastReported + 1 + k) (by decide : 512 > 0))
  exact Bool.eq_false_iff.mp hunowed

theorem State.chooseReport_window (h : s.report.windowOwed = true) : s.chooseReport = s.startWindowReport := if_pos h

theorem State.chooseReport_change {j : Judged} {rest : List Judged} (h : s.report.windowOwed = false)
    (hj : s.journal.judged = j :: rest) : s.chooseReport = s.startRecord .change (s.changeRecord j) := by
  simp [State.chooseReport, h, hj]

theorem State.chooseReport_circuit {c : Nat} (h : s.report.windowOwed = false) (hj : s.journal.judged = [])
    (hc : s.nextOwedCircuit = some c) : s.chooseReport = s.startCircuitReport c := by
  simp [State.chooseReport, h, hj, hc]

theorem State.chooseReport_none (h : s.report.windowOwed = false) (hj : s.journal.judged = [])
    (hc : s.nextOwedCircuit = none) : s.chooseReport = s := by
  simp [State.chooseReport, h, hj, hc]

theorem State.reportMayStart_iff :
    s.reportMayStart = true ↔ s.report.writer = .idle
      ∧ (s.report.producer - s.report.consumer).toNat ≠ s.layout.elim 0 Layout.reportSize
      ∧ s.layout.isSome = true ∧ s.report.summary.isWriting = false ∧ s.summaryDue = false := by
  simp [State.reportMayStart, State.ringFull, and_assoc]

theorem State.reportMayStart_free {l : Layout} (hl : s.layout = some l) (hidle : s.report.writer = .idle)
    (hroom : (s.report.producer - s.report.consumer).toNat ≠ l.reportSize) (hsummary : s.report.summary.isWriting = false)
    (hnotDue : ¬(s.report.summary = .idle ∧ s.report.wanted = true)) : s.reportMayStart = true := by
  have hdue : s.summaryDue = false := Bool.eq_false_of_not_eq_true fun hdue => by
    obtain ⟨hs, hwanted, -⟩ := s.summaryDue_iff.mp hdue
    exact hnotDue ⟨hs, hwanted⟩
  exact s.reportMayStart_iff.mpr ⟨hidle, by rw [hl]; exact hroom, by rw [hl]; rfl, hsummary, hdue⟩

/-- R165, R168: a writer that is free to choose does so. -/
theorem exec_reportWriteStart {s : State} (hreset : s.inReset = false) (hmay : s.reportMayStart = true) :
    exec .reportWriteStart s = .next s.chooseReport.endEvent := by
  refine (live_running s State.startReport hreset).trans ?_
  unfold State.startReport
  rw [if_pos hmay]

/-! ### A record starts (R166) -/

/-- R166: where the next record stands in the ring. -/
def State.recordPlace (l : Layout) : Nat := l.reportBase + 16 * (s.report.producer.toNat % l.reportSize)

theorem State.startRecord_eq {l : Layout} (hl : s.layout = some l) (item : RecordItem) (words : List Word) :
    s.startRecord item words = { s with
      arbiter := { s.arbiter with
        report := some { addr := s.recordPlace l, write := some (words.getD 0 0, 0xF) } }
      report := { s.report with
        writer := .writing item (s.recordPlace l) ((List.range words.length).zip words) false } } := by
  have hbase : s.layout.elim 0 Layout.reportBase = l.reportBase := by rw [hl]; rfl
  have hsize : s.layout.elim 1 Layout.reportSize = l.reportSize := by rw [hl]; rfl
  unfold State.startRecord
  rw [hbase, hsize]
  rfl

theorem State.startWindowReport_eq {l : Layout} (hl : s.layout = some l) :
    s.startWindowReport = { s with
      arbiter := { s.arbiter with
        report := some { addr := s.recordPlace l, write := some (s.windowRecord.getD 0 0, 0xF) } }
      report := { s.report with
        windowOwed := false
        writer := .writing .window (s.recordPlace l) ((List.range 4).zip s.windowRecord) false } } :=
  State.startRecord_eq { s with report := { s.report with windowOwed := false } } hl .window s.windowRecord

/-- R166: with its CIRCUIT report started a circuit is not owed and has no fence hits. -/
def State.circuitTaken (c : Nat) : State :=
  State.mapCircuit { s with report := { s.report with
      owed := Table.set false s.report.owed c false, lastReported := c } } c
    fun r => { r with fenceHits := 0 }

theorem State.circuitTaken_circuit (c k : Nat) :
    (s.circuitTaken c).circuit k = if k = c then { s.circuit c with fenceHits := 0 } else s.circuit k :=
  State.mapCircuit_circuit _ c _ k

theorem State.startCircuitReport_eq {l : Layout} (hl : s.layout = some l) (c : Nat) :
    s.startCircuitReport c = { s.circuitTaken c with
      arbiter := { s.arbiter with
        report := some { addr := s.recordPlace l, write := some ((s.circuitRecord c).getD 0 0, 0xF) } }
      report := { s.report with
        owed := Table.set false s.report.owed c false
        lastReported := c
        writer := .writing (.circuit c (s.circuit c).fenceHits) (s.recordPlace l)
          ((List.range 4).zip (s.circuitRecord c)) false } } :=
  State.startRecord_eq (s.circuitTaken c) hl (.circuit c (s.circuit c).fenceHits) (s.circuitRecord c)

/-- R165: what stands in the way of every start. -/
theorem State.startReport_none
    (h : s.layout = none ∨ s.report.writer ≠ .idle
      ∨ (∃ l, s.layout = some l ∧ (s.report.producer - s.report.consumer).toNat = l.reportSize)
      ∨ s.report.summary.isWriting = true ∨ (s.report.summary = .idle ∧ s.report.wanted = true)
      ∨ (s.report.windowOwed = false ∧ s.journal.judged = []
          ∧ ∀ c, c < 512 → Table.get false s.report.owed c = false)) :
    s.startReport = s := by
  unfold State.startReport
  split
  case isFalse => rfl
  case isTrue hmay =>
    obtain ⟨hidle, hroom, hlayout, hsummary, hnotDue⟩ := s.reportMayStart_iff.mp hmay
    obtain hnone | hbusy | ⟨l, hl, hfull⟩ | hwriting | ⟨hs, hwanted⟩ | ⟨hwindow, hjudged, hunowed⟩ := h
    · simp [hnone] at hlayout
    · exact absurd hidle hbusy
    · exact absurd (by rw [hl]; exact hfull) hroom
    · simp [hwriting] at hsummary
    · simp [s.summaryDue_iff.mpr ⟨hs, hwanted, hlayout, by rw [hidle]; rfl⟩] at hnotDue
    · exact s.chooseReport_none hwindow hjudged (s.nextOwedCircuit_none hunowed)

/-- Settles O48: the choice by its order, each record by its bits, and no start without the conditions. -/
theorem reportChosenInOrder : Obligations.ReportChosenInOrder := by
  unfold Obligations.ReportChosenInOrder
  refine ⟨fun s l hreset hl hidle hroom hsummary hnotDue => ?chosen, fun s hreset hnot => ?none⟩
  case chosen =>
    have hexec := exec_reportWriteStart hreset (s.reportMayStart_free hl hidle hroom hsummary hnotDue)
    refine ⟨fun hwindow => ?window, fun j rest hwindow hjudged => ?change,
      fun n hn hwindow hjudged hbefore howed => ?circuit⟩
    case window =>
      rw [s.chooseReport_window hwindow, s.startWindowReport_eq hl, s.windowRecord_eq] at hexec
      dsimp only
      rw [windowCode_eq]
      exact ⟨_, hexec, ⟨rfl, rfl⟩, rfl⟩
    case change =>
      rw [s.chooseReport_change hwindow hjudged, s.startRecord_eq hl, s.changeRecord_eq] at hexec
      dsimp only
      rw [phaseCode_eq, classificationCode_eq]
      exact ⟨_, hexec, ⟨rfl, rfl⟩, rfl⟩
    case circuit =>
      rw [s.chooseReport_circuit hwindow hjudged (s.nextOwedCircuit_eq hn hbefore howed)] at hexec
      generalize (s.report.lastReported + 1 + n) % 512 = c at *
      rw [s.startCircuitReport_eq hl, s.circuitRecord_eq, State.deviationOf_eq] at hexec
      dsimp only
      rw [circuitStateCode_eq, causeCode_eq, entryConditionCode_eq, sweepResultCode_eq]
      refine ⟨_, hexec, ⟨?_, rfl⟩, rfl, fun k => ?_, fun k => ?_⟩
      · cases (s.circuit c).restoreOutcome with
        | none => rfl
        | some o =>
          cases o with
          | done => rfl
          | failed p =>
            dsimp only
            rw [Nat.add_comm 1 p]
            rfl
      · exact s.circuitTaken_circuit c k
      · exact Table.get_set false s.report.owed c false k
  case none =>
    refine (live_running s State.startReport hreset).trans ?_
    rw [s.startReport_none hnot]

end Sys2Proof.Machine
end
